-- ==== Sys2Proof/Word.lean ====
section
/-! DEFINITION. The plainest types of the model: a byte of a frame or of the configuration image, and a timer. -/

namespace Sys2Proof

/-- One byte of an air bus frame or of the configuration image (R174, R181). -/
abbrev Byte := BitVec 8

/-- A timer of one block: `none` while stopped, `some ms` while running with `ms` milliseconds left.
The manual counts time in milliseconds (00, Events and time). -/
abbrev Timer := Option Nat

/-- `map` over a vector, through its list, so that the kernel can evaluate it. -/
def mapVector {α β : Type} {n : Nat} (f : α → β) (v : Vector α n) : Vector β n :=
  ⟨(v.toList.map f).toArray, by simp⟩

/-- The vector of a function's values, through a list, so that the kernel can evaluate it. -/
def tabulate {α : Type} {n : Nat} (f : Fin n → α) : Vector α n :=
  ⟨((List.finRange n).map f).toArray, by simp⟩

end Sys2Proof
end

