-- ==== Sys2Proof/Config.lean ====
section
/-! DEFINITION. The manual's names (roles, kinds, locations, qualities, regimes, flags), the configuration in use
(every field of the image of R181, as the chapters name them), and the free values: what the manual leaves open,
as constants without a body. -/

namespace Sys2Proof

/-- The role of the station, fixed at start (00, Roles; R180). -/
inductive Role | forward | inlet | cabin
deriving DecidableEq, Repr, Inhabited

/-- What a slot measures (R1). -/
inductive Kind | pm | no2 | co2 | rh | temp | dp | feedback
deriving DecidableEq, Repr, Inhabited

/-- Where a slot's sensor sits (R1). -/
inductive Location | outside | duct | cabin
deriving DecidableEq, Repr, Inhabited

/-- Slot quality (section 1.4, R11). -/
inductive Quality | warming | good | suspect | fault | absent
deriving DecidableEq, Repr, Inhabited

/-- What a slot converts, other than NONE (R1). A slot's channel is an `Option` of this; `none` is NONE. -/
inductive AnalogInput | ain (n : Fin 8) | supply | dieTemp
deriving DecidableEq, Repr, Inhabited

/-- The four settling times of a slot (R1). -/
inductive Dwell | ms5 | ms10 | ms20 | ms40
deriving DecidableEq, Repr, Inhabited

/-- The dwell in milliseconds (R1). -/
def Dwell.ms : Dwell → Nat
  | .ms5 => 5
  | .ms10 => 10
  | .ms20 => 20
  | .ms40 => 40

/-- The function of a discrete input (R18). -/
inductive InputFunction | none | door | switchRecirc | switchFlush | forceAlt
deriving DecidableEq, Repr, Inhabited

/-- The polarity of a discrete input (R18). -/
inductive Polarity | activeHigh | activeLow
deriving DecidableEq, Repr, Inhabited

/-- How a ramp channel moves (R127). -/
inductive RampMode | off | linear | eased
deriving DecidableEq, Repr, Inhabited

/-- The six regimes (R92). -/
inductive Regime | auto | recirc | flush | scrub | safe | idle
deriving DecidableEq, Repr, Inhabited

/-- The regimes a demand can ask for (R93). -/
inductive DemandRegime | recirc | flush | scrub
deriving DecidableEq, Repr, Inhabited

/-- The regime a demand asks for, as a regime of R92. -/
def DemandRegime.regime : DemandRegime → Regime
  | .recirc => .recirc
  | .flush => .flush
  | .scrub => .scrub

/-- The class of a flag (R159). -/
inductive FlagClass | none | report | lamp
deriving DecidableEq, Repr, Inhabited

/-- The 25 flags, in the order of the flag table of section 10.4. -/
inductive Flag
  | configDefault | configAdjusted | sensorFault | stall | filterWorn | linkPassive | linkWithdrawn
  | travelLost | safeActive | conflict
  | rule (n : Fin 8)
  | rxqOverflow | timelineOverflow | demandOverflow | counterRollover | travelDiscontinuity | peerLost
  | lampTest
deriving DecidableEq, Repr, Inhabited

/-- The number of a flag in the order of the flag table, 0 to 24 (R181, class map). -/
def Flag.index : Flag → Fin 25
  | .configDefault => 0
  | .configAdjusted => 1
  | .sensorFault => 2
  | .stall => 3
  | .filterWorn => 4
  | .linkPassive => 5
  | .linkWithdrawn => 6
  | .travelLost => 7
  | .safeActive => 8
  | .conflict => 9
  | .rule n => ⟨10 + n.val, by omega⟩
  | .rxqOverflow => 18
  | .timelineOverflow => 19
  | .demandOverflow => 20
  | .counterRollover => 21
  | .travelDiscontinuity => 22
  | .peerLost => 23
  | .lampTest => 24

/-- A set of the two plume species (R53, R71). -/
structure Species where
  pm : Bool
  no2 : Bool
deriving DecidableEq, Repr, Inhabited

/-- The configuration fields of one slot (R1). -/
structure SlotCfg where
  channel : Option AnalogInput
  kind : Kind
  location : Location
  gain : Int
  offset : Int
  fullScale : Nat
  shift : Nat
  limit : Nat
  dwell : Dwell
  warmUpS : Nat
  publish : Bool
  railCheck : Bool
  plumeWatch : Bool
deriving DecidableEq, Repr, Inhabited

/-- The configuration fields of one discrete input (R18). -/
structure InputCfg where
  function : InputFunction
  polarity : Polarity
  debounceMs : Nat
deriving DecidableEq, Repr

/-- The configuration fields of the sighting detector (R53). -/
structure DetectorCfg where
  shift : Nat
  openThreshold : Nat
  closeThreshold : Nat
  maxOpenS : Nat
deriving DecidableEq, Repr

/-- The configuration fields of the plume timeline (R72). A geometry entry of `none` is unset (255). -/
structure TimelineCfg where
  geometry : Vector (Option Nat) 8
  mask : Species
  leadMargin : Nat
  tailMargin : Nat
  reverseDrop : Nat
  approachCapS : Nat
  engulfCapS : Nat
  plumeLevel : Nat
  postHoldS : Nat
deriving DecidableEq, Repr

/-- The configuration fields of one ramp channel (R127). -/
structure RampCfg where
  mode : RampMode
  step : Nat
  intervalMs : Nat
deriving DecidableEq, Repr

/-- One point of the breakpoint table: recirculation fraction and damper code (R113). -/
structure Breakpoint where
  r : Nat
  p : Nat
deriving DecidableEq, Repr

/-- The five-point breakpoint table (R113). -/
structure BreakTable where
  b0 : Breakpoint
  b1 : Breakpoint
  b2 : Breakpoint
  b3 : Breakpoint
  b4 : Breakpoint
deriving DecidableEq, Repr

/-- The configuration fields of the mix law and the four regime codes (R92, R113). -/
structure MixCfg where
  fallbackWish : Nat
  fallbackFloor : Nat
  co2Low : Nat
  co2High : Nat
  band : Nat
  table : BreakTable
  blowerBase : Nat
  blowerGain : Nat
  blowerMin : Nat
  blowerMax : Nat
  flushBlower : Nat
  scrubBlower : Nat
  safeDamper : Nat
  safeBlower : Nat
deriving DecidableEq, Repr

/-- An operand choice of a rule (R153). -/
inductive Operand
  | slotValue (slot : Fin 16)
  | slotBurden (slot : Fin 16)
  | ownBurden
  | peerReading (station : Fin 8) (kind : Kind) (location : Location)
  | speed
  | plumeCount
deriving DecidableEq, Repr

/-- What operand A is compared with (R152). -/
inductive Comparand
  | constant (c : Nat)
  | operand (b : Operand)
deriving DecidableEq, Repr

/-- The relation of a rule (R152). -/
inductive Relation | lt | le | eq | ne | ge | gt
deriving DecidableEq, Repr

/-- What a rule does while it fires (R152). -/
inductive RuleAction
  | none
  | demand (regime : DemandRegime) (level : Nat)
  | safe
deriving DecidableEq, Repr

/-- The configuration fields of one rule (R152). -/
structure RuleCfg where
  enabled : Bool
  operandA : Operand
  comparand : Comparand
  relation : Relation
  hysteresis : Nat
  fireCount : Nat
  releaseCount : Nat
  action : RuleAction
deriving DecidableEq, Repr

/-- One entry of the acceptance table (R168). -/
structure AcceptEntry where
  enabled : Bool
  value : BitVec 11
  mask : BitVec 11
deriving DecidableEq, Repr

/-- The configuration in use: every configuration field the chapters name (R181). -/
structure Cfg where
  travelSource : Bool
  safeJump : Bool
  startSlot : Fin 16
  stopSlot : Fin 16
  faultTimeS : Nat
  staleTimeMs : Nat
  statusInterval : Nat
  readingInterval : Nat
  pulseScale : Nat
  demandHoldS : Nat
  safeHoldS : Nat
  driverLevel : Nat
  scrubLevel : Nat
  scrubTimeS : Nat
  targetBurden : Nat
  feedbackSlot : Option (Fin 16)
  stallTolerance : Nat
  fullFlow : Nat
  efficiency : Nat
  capacityMg : Nat
  slots : Vector SlotCfg 16
  inputs : Vector InputCfg 4
  detector : DetectorCfg
  timeline : TimelineCfg
  damper : RampCfg
  blower : RampCfg
  mix : MixCfg
  rules : Vector RuleCfg 8
  accept : Vector AcceptEntry 16
  classes : Vector FlagClass 25
deriving DecidableEq, Repr

/-! ## Free values: what the manual leaves open -/

/-- FREE VALUE (log 8). The channel of a factory default slot: R182 gives the default slots every field but this one.
By role and slot number. A default slot measures something, so its channel is not NONE. -/
opaque Config.defaultInput : Role → Nat → AnalogInput

/-- The fields of a slot that R1 gives no default, each within R1's range: a field of range lo to hi is held as its
distance above lo. -/
structure SpareSlot where
  channel : Option AnalogInput
  kind : Kind
  location : Location
  gain : Fin 1024
  offset : Fin 512
  fullScale : Fin 10000
  limit : Fin 10000
  dwell : Dwell
  warmUpS : Fin 601
  publish : Bool
  railCheck : Bool
  plumeWatch : Bool
deriving DecidableEq, Repr, Inhabited

/-- The slot entry with these fields: the smoothing shift is R1's default 2. -/
def SpareSlot.entry (p : SpareSlot) : SlotCfg :=
  { channel := p.channel, kind := p.kind, location := p.location, gain := (p.gain.val : Int) - 512
    offset := (p.offset.val : Int) - 256, fullScale := p.fullScale.val + 1, shift := 2, limit := p.limit.val + 1
    dwell := p.dwell, warmUpS := p.warmUpS.val, publish := p.publish, railCheck := p.railCheck
    plumeWatch := p.plumeWatch }

/-- FREE VALUE (log 8). The fields without a default of a slot that is not a default slot of the role: R182 names none. -/
opaque Config.spareSlot : Role → Nat → SpareSlot

/-- FREE VALUE (log 8). The polarity factory default of a discrete input (R18 and R182 give none). -/
opaque Config.defaultPolarity : Nat → Polarity

/-- FREE VALUE (log 36). The window part after a gain that R40 gives and R39's range 0–65535 cannot hold, by the sum. -/
opaque Config.partBeyond : Nat → BitVec 16

/-- FREE VALUE (log 15). The regime byte of a level-0 DEMAND, by source: R105 gives its level alone. -/
opaque Config.withdrawRegime : Nat → Byte

/-- FREE VALUE (log 15). The hold byte of a level-0 DEMAND, by source: R105 gives its level alone. -/
opaque Config.withdrawHold : Nat → Byte

end Sys2Proof
end

