-- ==== Sys2Proof/Syntax.lean ====
section
/-! DEFINITION. The commands of the block: one constructor of `Instr` for each row of spec/opcode_table.json, with what
the event needs from outside the station as operands (INVENTORY.md, Instructions). -/

namespace Sys2Proof

/-- A frame of the air bus: an 11-bit identifier and 0 to 8 data bytes (00, Signals; R174). -/
structure Frame where
  id : BitVec 11
  data : List Byte
deriving DecidableEq, Repr

/-- The debounced inputs of the input unit (R19, R21). -/
inductive Input | din (n : Fin 4) | force | ign | rev
deriving DecidableEq, Repr

/-- The digital input pins: the debounced inputs and the straps (00, Signals; R180). -/
inductive Pin | input (i : Input) | sn (n : Fin 3) | rs (n : Fin 2)
deriving DecidableEq, Repr

/-- The two ramp channels (section 8.1). -/
inductive RampName | damper | blower
deriving DecidableEq, Repr

/-- The two parts of the stretch (R171). -/
inductive StretchPart | peer | interval
deriving DecidableEq, Repr

/-- Which of two users of one sweep end acts first where R4 gives them no order (log 6). -/
inductive SweepOrder | rulesFirst | mixFirst
deriving DecidableEq, Repr

/-- Whether the travel notice (R50) or the change of ignition (R52) of one TRAVEL is taken first (log 7). -/
inductive TravelOrder | noticeFirst | ignitionFirst
deriving DecidableEq, Repr

/-- The commands: the rows of spec/opcode_table.json, in its order. -/
inductive Instr
  | powerOnReset
  | loadingComplete (image : List Byte)
  | joiningTimerExpiry
  | dwellExpiry (code : Nat) (order : SweepOrder)
  | warmUpExpiry (slot : Fin 16)
  | suspectTimerExpiry (slot : Fin 16)
  | pinEdge (pin : Pin) (level : Bool)
  | debounceExpiry (input : Input)
  | odoPulse
  | travelTimerExpiry (order : TravelOrder)
  | standstillTimerExpiry
  | travelTaken (order : TravelOrder)
  | lossTimerExpiry
  | statusTaken
  | readingTaken
  | readingStale (station : Fin 8) (kind : Kind) (location : Location)
  | silenceLimitReached (station : Fin 8)
  | updateTimerExpiry
  | maxOpenTimerExpiry
  | sightTaken
  | approachCapExpiry (origin : Fin 8) (sequence : Fin 256)
  | engulfCapExpiry (origin : Fin 8) (sequence : Fin 256)
  | postHoldExpiry
  | demandTaken
  | demandHoldExpiry (station : Fin 8) (source : Fin 16)
  | safeTaken
  | safeHoldExpiry (station : Fin 8)
  | demandRepeatExpiry (source : Fin 16)
  | safeRepeatExpiry
  | scrubTimerExpiry
  | checkTimerExpiry
  | intervalTimerExpiry (channel : RampName)
  | settleTimerExpiry
  | accountingTimerExpiry
  | sent
  | arbitrationLost
  | failed
  | withdrawalTimerExpiry
  | statusTimerExpiry
  | readingTimerExpiry
  | frameReceived (frame : Frame)
  | guardExpiry
  | hushTaken
  | stretchEnd (part : StretchPart)
  | frameDiscarded
  | query
  | clearCounters
  | clearFlags
  | clearFilter
  | resetLink
  | resetPlume
  | resetDemands
  | resetAll
  | fullResetCarriedOut
  | lampTest
  | unknownRequest
deriving DecidableEq, Repr

end Sys2Proof
end

