-- ==== Sys2Proof/Decode.lean ====
section
/-! DEFINITION. The command a word spells by the bits of spec/opcode_table.json. The table gives none of its rows any
bits (98_reader.md: n_rows_with_fixed 0, n_rows_with_fields 0), so no word spells a command. -/

namespace Sys2Proof

/-- The command spelled by a word of `nbits` bits: none, since no row of the table has bits. -/
def decodeTableWord (_nbits _w : Nat) : Option Instr := none

end Sys2Proof
end

