-- ==== Sys2Proof/Machine/Image.lean ====
section
/-! DEFINITION. The configuration image (R181), its checks and validation (R180), and the factory defaults (R182). -/

namespace Sys2Proof.Machine

/-! ## Factory defaults (R182 and the chapters it names) -/

/-- The class of a flag in the factory default class map (R159). -/
def defaultClass (i : Nat) : FlagClass :=
  if i = 2 ∨ i = 3 ∨ i = 4 ∨ i = 6 ∨ i = 9 ∨ i = 24 then .lamp else .report

/-- The kind of a factory default slot, or none where the role has no default slot of that number (R182). -/
def defaultKind (role : Role) (i : Nat) : Option Kind :=
  match i, role with
  | 0, _ => some .pm
  | 1, _ => some .no2
  | 2, .cabin => some .co2
  | 3, .cabin => some .rh
  | 4, .cabin => some .temp
  | _, _ => none

/-- The full scale of a factory default slot (R182). -/
def defaultFullScale : Kind → Nat
  | .co2 => 5000
  | _ => 1000

/-- The limit of a factory default slot (R182). -/
def defaultLimit : Kind → Nat
  | .pm => 100
  | .no2 => 200
  | .co2 => 2000
  | _ => 1000

/-- One row of the factory default slot table (R182). Of a slot the role has no default for, the fields without a default
in R1 are free values (log 8). A CABIN's default slots have plume watch clear: R182 gives it for FORWARD and INLET alone
(log 40). -/
def defaultSlot (role : Role) (i : Nat) : SlotCfg :=
  match defaultKind role i with
  | none => (Config.spareSlot role i).entry
  | some k =>
    { channel := some (Config.defaultInput role i)
      kind := k
      location := if role = .cabin then .cabin else .outside
      gain := 0
      offset := 0
      fullScale := defaultFullScale k
      shift := 2
      limit := defaultLimit k
      dwell := .ms10
      warmUpS := 60
      publish := true
      railCheck := true
      plumeWatch := decide (role = .forward) }

/-- A discrete input by default: function NONE, 50 ms (R18, R182); the polarity is a free value (log 8). -/
def defaultInputCfg (i : Nat) : InputCfg :=
  { function := .none, polarity := Config.defaultPolarity i, debounceMs := 50 }

/-- The default breakpoint table (R113). -/
def defaultTable : BreakTable :=
  { b0 := ⟨0, 80⟩, b1 := ⟨250, 300⟩, b2 := ⟨500, 520⟩, b3 := ⟨750, 760⟩, b4 := ⟨1000, 940⟩ }

/-- The mix law's defaults (R113) and the four regime codes' (R92). -/
def defaultMix : MixCfg :=
  { fallbackWish := 500, fallbackFloor := 300, co2Low := 800, co2High := 1400, band := 1000
    table := defaultTable
    blowerBase := 300, blowerGain := 800, blowerMin := 150, blowerMax := 900
    flushBlower := 850, scrubBlower := 1023, safeDamper := 80, safeBlower := 400 }

/-- The rule a disabled row holds. R152, R158 and R182 give its other fields no values; own combined burden LT 0, h 0,
counts 1 and 1 and NONE are the model's choice (log 45). It is never evaluated, so none of them has an effect (R155). -/
def disabledRule : RuleCfg :=
  { enabled := false, operandA := .ownBurden, comparand := .constant 0, relation := .lt, hysteresis := 0
    fireCount := 1, releaseCount := 1, action := .none }

/-- The factory default rules (R158). -/
def defaultRule (role : Role) (i : Nat) : RuleCfg :=
  match role, i with
  | .cabin, 0 =>
    { enabled := true, operandA := .slotValue 2, comparand := .constant 2000, relation := .ge, hysteresis := 200
      fireCount := 3, releaseCount := 3, action := .demand .flush 5 }
  | .cabin, 1 =>
    { enabled := true, operandA := .slotValue 3, comparand := .constant 850, relation := .ge, hysteresis := 50
      fireCount := 5, releaseCount := 5, action := .demand .flush 6 }
  | _, _ => disabledRule

/-- The default acceptance table: entry 0 alone is enabled, with mask 0 (R168). Its value, and the value and mask of the
disabled entries, are 0: the model's choice (log 41). -/
def defaultAccept (i : Nat) : AcceptEntry := { enabled := decide (i = 0), value := 0, mask := 0 }

/-- The factory defaults of a role (R182, and the chapters' defaults). -/
def factoryDefault (role : Role) : Cfg :=
  { travelSource := false, safeJump := false
    startSlot := 0, stopSlot := if role = .cabin then 4 else 1
    faultTimeS := 5, staleTimeMs := 2000, statusInterval := 10, readingInterval := 5, pulseScale := 800
    demandHoldS := 6, safeHoldS := 3, driverLevel := 5, scrubLevel := 3, scrubTimeS := 60, targetBurden := 300
    feedbackSlot := none, stallTolerance := 40, fullFlow := 150, efficiency := 950, capacityMg := 20000
    slots := tabulate fun i => defaultSlot role i
    inputs := tabulate fun i => defaultInputCfg i
    detector := { shift := 8, openThreshold := 300, closeThreshold := 150, maxOpenS := 45 }
    timeline :=
      { geometry := tabulate fun _ => none, mask := ⟨true, true⟩, leadMargin := 5, tailMargin := 20, reverseDrop := 50
        approachCapS := 15, engulfCapS := 120, plumeLevel := 4, postHoldS := 3 }
    damper := { mode := .linear, step := 32, intervalMs := 20 }
    blower := { mode := .linear, step := 16, intervalMs := 50 }
    mix := defaultMix
    rules := tabulate fun i => defaultRule role i
    accept := tabulate fun i => defaultAccept i
    classes := tabulate fun i => defaultClass i }

/-! ## Reading fields -/

/-- The 512 bytes read from address 0; a byte the memory does not give reads 0xFF (R180). -/
def imageBytes (image : List Byte) : List Byte :=
  (image ++ List.replicate (512 - image.length) 0xFF#8).take 512

/-- Byte `i` of the image as a number. -/
def byteAt (img : List Byte) (i : Nat) : Nat := (img.getD i 0xFF#8).toNat

/-- Bit `b` of byte `i` (R181: bit 0 is the least significant). -/
def bitAt (img : List Byte) (i b : Nat) : Bool := (byteAt img i).testBit b

/-- An unsigned field of `len` bytes at `i`, high byte first (R181). -/
def fieldAt (img : List Byte) (i : Nat) : Nat → Nat
  | 0 => 0
  | len + 1 => fieldAt img i len * 256 + byteAt img (i + len)

/-- A two-byte two's complement field (R181). -/
def signedAt (img : List Byte) (i : Nat) : Int :=
  let v := fieldAt img i 2
  if v < 32768 then (v : Int) else (v : Int) - 65536

/-- The image is valid: marker, layout number and checksum (R180). -/
def imageValid (img : List Byte) : Bool :=
  byteAt img 0 == 0x48 && byteAt img 1 == 0x4D && byteAt img 2 == 1 &&
    ((img.take 510).map (·.toNat)).sum % 65536 == fieldAt img 510 2

/-! ## Validation, field by field (R180) -/

/-- A validated field: its value, and whether validation changed it (CONFIG_ADJUSTED, R180). -/
structure Checked (α : Type) where
  val : α
  changed : Bool
deriving Repr

/-- A numeric field clamped to its range (R180). -/
def checkNum (lo hi raw : Nat) : Checked Nat :=
  { val := max lo (min hi raw), changed := decide (raw < lo ∨ hi < raw) }

/-- A signed numeric field clamped to its range (R180). -/
def checkInt (lo hi raw : Int) : Checked Int :=
  { val := max lo (min hi raw), changed := decide (raw < lo ∨ hi < raw) }

/-- An enumerated field: a value that is none of those listed takes the factory default (R180). -/
def checkEnum {α : Type} (default : α) : Option α → Checked α
  | some a => { val := a, changed := false }
  | none => { val := default, changed := true }

/-- Channel codes (R181, slot entry byte 0). The inner `none` is NONE; the outer one is no listed value. -/
def channelOfCode (c : Nat) : Option (Option AnalogInput) :=
  if h : c < 8 then some (some (.ain ⟨c, h⟩))
  else if c = 8 then some (some .supply)
  else if c = 9 then some (some .dieTemp)
  else if c = 10 then some none
  else none

/-- Kind codes (R181, R174). -/
def kindOfCode : Nat → Option Kind
  | 0 => some .pm
  | 1 => some .no2
  | 2 => some .co2
  | 3 => some .rh
  | 4 => some .temp
  | 5 => some .dp
  | 6 => some .feedback
  | _ => none

/-- Location codes (R181, R174). -/
def locationOfCode : Nat → Option Location
  | 0 => some .outside
  | 1 => some .duct
  | 2 => some .cabin
  | _ => none

/-- Dwell codes (R181). -/
def dwellOfCode : Nat → Option Dwell
  | 0 => some .ms5
  | 1 => some .ms10
  | 2 => some .ms20
  | 3 => some .ms40
  | _ => none

/-- Input function codes (R181). -/
def functionOfCode : Nat → Option InputFunction
  | 0 => some .none
  | 1 => some .door
  | 2 => some .switchRecirc
  | 3 => some .switchFlush
  | 4 => some .forceAlt
  | _ => none

/-- Polarity codes (R181). -/
def polarityOfCode : Nat → Option Polarity
  | 0 => some .activeHigh
  | 1 => some .activeLow
  | _ => none

/-- Ramp mode codes (R181). -/
def rampModeOfCode : Nat → Option RampMode
  | 0 => some .off
  | 1 => some .linear
  | 2 => some .eased
  | _ => none

/-- Flag class codes (R181). -/
def classOfCode : Nat → Option FlagClass
  | 0 => some .none
  | 1 => some .report
  | 2 => some .lamp
  | _ => none

/-- Relation codes (R181). -/
def relationOfCode : Nat → Option Relation
  | 0 => some .lt
  | 1 => some .le
  | 2 => some .eq
  | 3 => some .ne
  | 4 => some .ge
  | 5 => some .gt
  | _ => none

/-- Regime codes of a demand (R174, R181). -/
def demandRegimeOfCode : Nat → Option DemandRegime
  | 1 => some .recirc
  | 2 => some .flush
  | 3 => some .scrub
  | _ => none

/-- The entry of slot `i` (R181), validated (R180). -/
def checkSlot (img : List Byte) (role : Role) (i : Nat) : Checked SlotCfg :=
  let at_ := 32 + 16 * i
  let d := defaultSlot role i
  let channel := checkEnum d.channel (channelOfCode (byteAt img at_))
  let kind := checkEnum d.kind (kindOfCode (byteAt img (at_ + 1)))
  let location := checkEnum d.location (locationOfCode (byteAt img (at_ + 2)))
  let gain := checkInt (-512) 511 (signedAt img (at_ + 3))
  let offset := checkInt (-256) 255 (signedAt img (at_ + 5))
  let fullScale := checkNum 1 10000 (fieldAt img (at_ + 7) 2)
  let shift := checkNum 0 6 (byteAt img (at_ + 9))
  let limit := checkNum 1 10000 (fieldAt img (at_ + 10) 2)
  let dwell := checkEnum d.dwell (dwellOfCode (byteAt img (at_ + 12)))
  let warmUp := checkNum 0 600 (fieldAt img (at_ + 13) 2)
  { val :=
      { channel := channel.val, kind := kind.val, location := location.val, gain := gain.val, offset := offset.val
        fullScale := fullScale.val, shift := shift.val, limit := limit.val, dwell := dwell.val, warmUpS := warmUp.val
        publish := bitAt img (at_ + 15) 0, railCheck := bitAt img (at_ + 15) 1, plumeWatch := bitAt img (at_ + 15) 2 }
    changed := channel.changed || kind.changed || location.changed || gain.changed || offset.changed
      || fullScale.changed || shift.changed || limit.changed || dwell.changed || warmUp.changed }

/-- The entry of discrete input `i` (R181), validated. -/
def checkInput (img : List Byte) (i : Nat) : Checked InputCfg :=
  let at_ := 288 + 4 * i
  let d := defaultInputCfg i
  let function := checkEnum d.function (functionOfCode (byteAt img at_))
  let polarity := checkEnum d.polarity (polarityOfCode (byteAt img (at_ + 1)))
  let debounce := checkNum 10 250 (fieldAt img (at_ + 2) 2)
  { val := { function := function.val, polarity := polarity.val, debounceMs := debounce.val }
    changed := function.changed || polarity.changed || debounce.changed }

/-- The detector's fields (R53, R181). The close threshold is brought below the open one (R53, R180). -/
def checkDetector (img : List Byte) : Checked DetectorCfg :=
  let shift := checkNum 4 10 (byteAt img 304)
  let openT := checkNum 50 2000 (fieldAt img 305 2)
  let closeT := checkNum 25 (openT.val - 1) (fieldAt img 307 2)
  let maxOpen := checkNum 10 120 (byteAt img 309)
  { val := { shift := shift.val, openThreshold := openT.val, closeThreshold := closeT.val, maxOpenS := maxOpen.val }
    changed := shift.changed || openT.changed || closeT.changed || maxOpen.changed }

/-- A geometry byte: 255 is unset (R72). -/
def geometryOfByte (b : Nat) : Option Nat := if b = 255 then none else some b

/-- The plume timeline's fields (R72, R181). An empty species mask becomes both kinds (R72, R180). -/
def checkTimeline (img : List Byte) : Checked TimelineCfg :=
  let mask : Species := ⟨bitAt img 318 0, bitAt img 318 1⟩
  let empty := !mask.pm && !mask.no2
  let lead := checkNum 0 100 (byteAt img 319)
  let tail := checkNum 0 200 (byteAt img 320)
  let drop := checkNum 10 200 (byteAt img 321)
  let approach := checkNum 2 60 (byteAt img 322)
  let engulf := checkNum 10 300 (fieldAt img 323 2)
  let level := checkNum 1 7 (byteAt img 325)
  let post := checkNum 0 20 (byteAt img 326)
  { val :=
      { geometry := tabulate fun n => geometryOfByte (byteAt img (310 + n.val))
        mask := if empty then ⟨true, true⟩ else mask
        leadMargin := lead.val, tailMargin := tail.val, reverseDrop := drop.val, approachCapS := approach.val
        engulfCapS := engulf.val, plumeLevel := level.val, postHoldS := post.val }
    changed := empty || lead.changed || tail.changed || drop.changed || approach.changed || engulf.changed
      || level.changed || post.changed }

/-- The three bytes of one ramp channel (R127, R181), validated against the channel's defaults. -/
def checkRamp (img : List Byte) (i : Nat) (default : RampCfg) : Checked RampCfg :=
  let mode := checkEnum default.mode (rampModeOfCode (byteAt img i))
  let step := checkNum 1 255 (byteAt img (i + 1))
  let interval := checkNum 5 200 (byteAt img (i + 2))
  { val := { mode := mode.val, step := step.val, intervalMs := interval.val }
    changed := mode.changed || step.changed || interval.changed }

/-- The conditions a breakpoint table must meet as a whole (R114). -/
def BreakTable.valid (t : BreakTable) : Bool :=
  decide (t.b0.r = 0 ∧ t.b4.r = 1000 ∧ t.b0.r < t.b1.r ∧ t.b1.r < t.b2.r ∧ t.b2.r < t.b3.r ∧ t.b3.r < t.b4.r
    ∧ t.b0.p ≤ t.b1.p ∧ t.b1.p ≤ t.b2.p ∧ t.b2.p ≤ t.b3.p ∧ t.b3.p ≤ t.b4.p ∧ t.b4.p ≤ 1023)

/-- The mix law's fields (R113, R181), clamped and then corrected as R114 states. -/
def checkMix (img : List Byte) : Checked MixCfg :=
  let point (k : Nat) : Breakpoint := ⟨fieldAt img (346 + 4 * k) 2, fieldAt img (348 + 4 * k) 2⟩
  let table : BreakTable := ⟨point 0, point 1, point 2, point 3, point 4⟩
  let wish := checkNum 0 1000 (fieldAt img 336 2)
  let floor := checkNum 0 1000 (fieldAt img 338 2)
  let low := checkNum 400 3000 (fieldAt img 340 2)
  let high := checkNum (low.val + 1) 5000 (fieldAt img 342 2)
  let band := checkNum 100 2000 (fieldAt img 344 2)
  let base := checkNum 0 1023 (fieldAt img 366 2)
  let gain := checkNum 0 2000 (fieldAt img 368 2)
  let bmin := checkNum 0 1023 (fieldAt img 370 2)
  let bmaxRange := checkNum 0 1023 (fieldAt img 372 2)
  let bmax : Checked Nat := ⟨max bmin.val bmaxRange.val, bmaxRange.changed || decide (bmaxRange.val < bmin.val)⟩
  let flushB := checkNum 0 1023 (fieldAt img 374 2)
  let scrubB := checkNum 0 1023 (fieldAt img 376 2)
  let safeD := checkNum 0 1023 (fieldAt img 378 2)
  let safeB := checkNum 0 1023 (fieldAt img 380 2)
  { val :=
      { fallbackWish := wish.val, fallbackFloor := floor.val, co2Low := low.val, co2High := high.val, band := band.val
        table := if BreakTable.valid table then table else defaultTable
        blowerBase := base.val, blowerGain := gain.val, blowerMin := bmin.val, blowerMax := bmax.val
        flushBlower := flushB.val, scrubBlower := scrubB.val, safeDamper := safeD.val, safeBlower := safeB.val }
    changed := wish.changed || floor.changed || low.changed || high.changed || band.changed
      || !BreakTable.valid table || base.changed || gain.changed || bmin.changed || bmax.changed
      || flushB.changed || scrubB.changed || safeD.changed || safeB.changed }

/-- A rule operand from its choice and parameter byte (R181); none where it is none of the listed values. -/
def operandOf (choice param : Nat) : Option Operand :=
  let slot : Fin 16 := ⟨param % 16, Nat.mod_lt _ (by decide)⟩
  match choice with
  | 0 => some (.slotValue slot)
  | 1 => some (.slotBurden slot)
  | 2 => some .ownBurden
  | 3 =>
    match kindOfCode (param / 8 % 8), locationOfCode (param / 64) with
    | some k, some l => some (.peerReading ⟨param % 8, Nat.mod_lt _ (by decide)⟩ k l)
    | _, _ => none
  | 4 => some .speed
  | 5 => some .plumeCount
  | _ => none

/-- The comparand of the rule entry at `i` (R181). -/
def comparandOf (img : List Byte) (i : Nat) : Option Comparand :=
  if bitAt img i 4 then (operandOf (byteAt img (i + 3) % 8) (byteAt img (i + 4))).map .operand
  else some (.constant (fieldAt img (i + 3) 2))

/-- The action of the rule entry at `i` (R181); its level is clamped to 1–7 and read for DEMAND alone. -/
def actionOf (img : List Byte) (i : Nat) : Option (Checked RuleAction) :=
  match byteAt img i / 32 % 4 with
  | 0 => some ⟨.none, false⟩
  | 1 =>
    let level := checkNum 1 7 (byteAt img (i + 1) / 32)
    (demandRegimeOfCode (byteAt img (i + 1) / 8 % 4)).map fun r => ⟨.demand r level.val, level.changed⟩
  | 2 => some ⟨.safe, false⟩
  | _ => none

/-- The entry of rule `n` (R181). A rule with a choice that is none of R152's is taken as disabled (R152, log 29). -/
def checkRule (img : List Byte) (n : Nat) : Checked RuleCfg :=
  let at_ := 384 + 8 * n
  match operandOf (byteAt img (at_ + 1) % 8) (byteAt img (at_ + 2)), comparandOf img at_,
      relationOfCode (byteAt img at_ / 2 % 8), actionOf img at_ with
  | some a, some c, some rel, some act =>
    let hyst := checkNum 0 1000 (fieldAt img (at_ + 5) 2)
    let fire := checkNum 1 15 (byteAt img (at_ + 7) % 16)
    let release := checkNum 1 15 (byteAt img (at_ + 7) / 16)
    { val :=
        { enabled := bitAt img at_ 0, operandA := a, comparand := c, relation := rel, hysteresis := hyst.val
          fireCount := fire.val, releaseCount := release.val, action := act.val }
      changed := hyst.changed || fire.changed || release.changed || act.changed }
  | _, _, _, _ => { val := disabledRule, changed := true }

/-- The acceptance entry `n` (R181). -/
def acceptAt (img : List Byte) (n : Nat) : AcceptEntry :=
  let at_ := 448 + 3 * n
  let b0 := byteAt img at_
  { enabled := b0.testBit 7
    value := BitVec.ofNat 11 (b0 % 8 * 256 + byteAt img (at_ + 1))
    mask := BitVec.ofNat 11 (b0 / 8 % 8 * 256 + byteAt img (at_ + 2)) }

/-- The class of flag `i` in the class map; a code of 3 gives the factory default class (R181). -/
def checkClass (img : List Byte) (i : Nat) : Checked FlagClass :=
  checkEnum (defaultClass i) (classOfCode (byteAt img (496 + i / 4) / 4 ^ (i % 4) % 4))

/-- The feedback slot: 0–15, or 16 for NONE; another value takes the default NONE (R127, R181). -/
def checkFeedback (raw : Nat) : Checked (Option (Fin 16)) :=
  if h : raw < 16 then ⟨some ⟨raw, h⟩, false⟩ else ⟨none, decide (raw ≠ 16)⟩

/-- A valid image, validated field by field for its role (R180). -/
def validateImage (img : List Byte) (role : Role) : Checked Cfg :=
  let faultTime := checkNum 1 30 (byteAt img 6)
  let stale := checkNum 5 100 (byteAt img 7)
  let status := checkNum 2 60 (byteAt img 8)
  let reading := checkNum 1 60 (byteAt img 9)
  let scale := checkNum 1 4000 (fieldAt img 10 2)
  let demandHold := checkNum 3 30 (byteAt img 12)
  let safeHold := checkNum 1 30 (byteAt img 13)
  let driver := checkNum 1 7 (byteAt img 14)
  let scrubLevel := checkNum 1 7 (byteAt img 15)
  let scrubTime := checkNum 10 300 (fieldAt img 16 2)
  let target := checkNum 50 2000 (fieldAt img 18 2)
  let feedback := checkFeedback (byteAt img 20)
  let tolerance := checkNum 5 200 (fieldAt img 21 2)
  let flow := checkNum 10 500 (fieldAt img 23 2)
  let eff := checkNum 0 1000 (fieldAt img 25 2)
  let capacity := checkNum 1000 100000 (fieldAt img 27 4)
  let slots : Vector (Checked SlotCfg) 16 := tabulate fun i => checkSlot img role i
  let inputs : Vector (Checked InputCfg) 4 := tabulate fun i => checkInput img i
  let detector := checkDetector img
  let timeline := checkTimeline img
  let damper := checkRamp img 327 (factoryDefault role).damper
  let blower := checkRamp img 330 (factoryDefault role).blower
  let mix := checkMix img
  let rules : Vector (Checked RuleCfg) 8 := tabulate fun i => checkRule img i
  let classes : Vector (Checked FlagClass) 25 := tabulate fun i => checkClass img i
  { val :=
      { travelSource := bitAt img 4 0, safeJump := bitAt img 4 1
        startSlot := ⟨byteAt img 5 % 16, Nat.mod_lt _ (by decide)⟩
        stopSlot := ⟨byteAt img 5 / 16 % 16, Nat.mod_lt _ (by decide)⟩
        faultTimeS := faultTime.val, staleTimeMs := stale.val * 100, statusInterval := status.val
        readingInterval := reading.val, pulseScale := scale.val, demandHoldS := demandHold.val
        safeHoldS := safeHold.val, driverLevel := driver.val, scrubLevel := scrubLevel.val
        scrubTimeS := scrubTime.val, targetBurden := target.val, feedbackSlot := feedback.val
        stallTolerance := tolerance.val, fullFlow := flow.val, efficiency := eff.val, capacityMg := capacity.val
        slots := mapVector (·.val) slots, inputs := mapVector (·.val) inputs, detector := detector.val
        timeline := timeline.val, damper := damper.val, blower := blower.val, mix := mix.val
        rules := mapVector (·.val) rules, accept := tabulate fun i => acceptAt img i
        classes := mapVector (·.val) classes }
    changed := faultTime.changed || stale.changed || status.changed || reading.changed || scale.changed
      || demandHold.changed || safeHold.changed || driver.changed || scrubLevel.changed || scrubTime.changed
      || target.changed || feedback.changed || tolerance.changed || flow.changed || eff.changed
      || capacity.changed || slots.toList.any (·.changed) || inputs.toList.any (·.changed) || detector.changed
      || timeline.changed || damper.changed || blower.changed || mix.changed || rules.toList.any (·.changed)
      || classes.toList.any (·.changed) }

/-- The role of a valid image (R180): the strap's, or for strap 3 the role byte's, a byte outside 1–3 giving CABIN and
an adjustment. -/
def roleOfValid (strap roleByte : Nat) : Checked Role :=
  match strap with
  | 0 => ⟨.forward, false⟩
  | 1 => ⟨.inlet, false⟩
  | 2 => ⟨.cabin, false⟩
  | _ =>
    match roleByte with
    | 1 => ⟨.forward, false⟩
    | 2 => ⟨.inlet, false⟩
    | 3 => ⟨.cabin, false⟩
    | _ => ⟨.cabin, true⟩

/-- The role of an invalid or blank image: the strap's, strap 3 giving CABIN (R180). -/
def roleOfStrap : Nat → Role
  | 0 => .forward
  | 1 => .inlet
  | _ => .cabin

/-- What LOADING decides: the role, the configuration in use and the two CONFIG flags (R180). -/
structure Loaded where
  role : Role
  cfg : Cfg
  isDefault : Bool
  adjusted : Bool
deriving Repr

/-- The decision at the completion of the image read (R180). -/
def loadImage (strap : Nat) (image : List Byte) : Loaded :=
  let img := imageBytes image
  if imageValid img then
    let role := roleOfValid strap (byteAt img 3)
    let cfg := validateImage img role.val
    { role := role.val, cfg := cfg.val, isDefault := false, adjusted := role.changed || cfg.changed }
  else
    { role := roleOfStrap strap, cfg := factoryDefault (roleOfStrap strap), isDefault := true, adjusted := false }

end Sys2Proof.Machine
end

