-- ==== Sys2Proof/Machine/State.lean ====
section
/-! DEFINITION. The state of the station, as plain data: every piece of state the manual gives its blocks
(INVENTORY.md, State), the queue of waiting commands, and the state after reset. -/

namespace Sys2Proof.Machine

open Sys2Proof

/-- Why a step could stop with a fault. The manual names no event that stops the part, so there is no reason:
no meaning raises a fault (safe: nothing is proved from a stop). -/
inductive Fault
deriving DecidableEq, Repr

/-- Why a command could be refused. -/
inductive Refusal
  /-- Raised by `exec`'s arm of a command that has no meaning yet; no arm raises it now. Safe: the model stops. -/
  | notModelled (mnemonic : String)
deriving DecidableEq, Repr

/-! ## Start-up controller and pins -/

/-- The station state (R180, R183, R184). -/
inductive Station | loading | joining | running | conflict
deriving DecidableEq, Repr

/-- The levels of the digital input pins (00, Signals). -/
structure Pins where
  din : Vector Bool 4
  force : Bool
  ign : Bool
  rev : Bool
  sn : Vector Bool 3
  rs : Vector Bool 2
deriving DecidableEq, Repr

/-- The start-up controller (R180, R183, R185). -/
structure Startup where
  station : Station
  role : Role
  own : Fin 8
  strap : Fin 4
  joining : Timer
  pendingReset : Bool
deriving DecidableEq, Repr

/-! ## Sensing and inputs -/

/-- The value record of a slot (R15). -/
structure SlotRecord where
  quality : Quality
  value : Nat
  seeded : Bool
  burden : Option Nat
  warmedUp : Bool
  warmUp : Timer
  suspect : Timer
deriving DecidableEq, Repr

/-- The sensor sequencer: value records, sweep position, dwell timer (R3, R15). -/
structure Sequencer where
  records : Vector SlotRecord 16
  position : Fin 16
  dwell : Timer
deriving DecidableEq, Repr

/-- One debounced input: its debounced pin level and its debounce timer (R19). -/
structure Debounced where
  level : Bool
  timer : Timer
deriving DecidableEq, Repr

/-- The input unit (R19, R21). -/
structure InputUnit where
  din : Vector Debounced 4
  force : Debounced
  ign : Debounced
  rev : Debounced
deriving DecidableEq, Repr

/-! ## Travel -/

/-- The travel source (R39). `parts` holds the five closed window parts, the oldest first. -/
structure Source where
  accumulator : Nat
  count : Nat
  parts : Vector Nat 5
  current : Nat
  speed : Nat
  standstill : Bool
  sequence : Nat
  travelTimer : Timer
  standstillTimer : Timer
deriving DecidableEq, Repr

/-- The states of the travel tracker (section 3.2). -/
inductive TrackState | unsynced | tracking | lost
deriving DecidableEq, Repr

/-- The travel tracker (R45). -/
structure Tracker where
  state : TrackState
  reference : Option (Fin 8)
  lastCount : Nat
  lastSequence : Nat
  speed : Nat
  ignition : Bool
  reverse : Bool
  loss : Timer
deriving DecidableEq, Repr

/-! ## Peers -/

/-- The station state a peer announces (R23). -/
inductive Announced | joining | running | conflict
deriving DecidableEq, Repr

/-- A reading record (R24). `stale` marks a record that has become stale and has not been updated since (R33, log 25). -/
structure Reading where
  kind : Kind
  location : Location
  quality : Quality
  value : Nat
  burden : Option Nat
  ageMs : Nat
  stale : Bool
deriving DecidableEq, Repr

/-- The fields of an entry that is PRESENT or SILENT (R23). -/
structure PeerInfo where
  role : Role
  announced : Announced
  intervalMs : Nat
  lastStatusMs : Nat
  burden : Option Nat
  regime : Option Regime
  damper : Option Nat
  summary : Byte
  readings : List Reading
deriving DecidableEq, Repr

/-- A peer's presence as this station sees it; an ABSENT entry holds no other field (R23). -/
inductive Presence
  | absent
  | present (info : PeerInfo)
  | silent (info : PeerInfo)
deriving DecidableEq, Repr

/-- An entry of the peer table: presence and silence tally (R23). -/
structure PeerEntry where
  presence : Presence
  tally : Nat
deriving DecidableEq, Repr

/-! ## The plume path -/

/-- The states of the sighting detector (R53). -/
inductive DetectorState | clear | pending | opened | closing
deriving DecidableEq, Repr

/-- A baseline record (R53). -/
structure Baseline where
  value : Nat
  seeded : Bool
deriving DecidableEq, Repr

/-- The sighting detector (R53). -/
structure Detector where
  state : DetectorState
  sequence : Nat
  dsf : Nat
  peak : Nat
  species : Species
  travelLost : Bool
  update : Timer
  maxOpen : Timer
  baselines : Vector Baseline 16
deriving DecidableEq, Repr

/-- Where a plume stands relative to the intake (R71). -/
inductive PlumePhase | approaching | armed | engulfed
deriving DecidableEq, Repr

/-- A plume record (R71). `created` is its place in the creation order (log 28). -/
structure PlumeRecord where
  origin : Fin 8
  sequence : Nat
  species : Species
  peak : Nat
  offset : Int
  df : Nat
  length : Option Nat
  dt : Option Nat
  background : Bool
  phase : PlumePhase
  ageMs : Nat
  engulfMs : Option Nat
  created : Nat
deriving DecidableEq, Repr

/-- The PLUME state (R72, R84). -/
inductive PlumeHold | off | held | postHold
deriving DecidableEq, Repr

/-- The plume timeline (R71, R72). -/
structure Timeline where
  records : List PlumeRecord
  nextCreated : Nat
  lead : Nat
  hold : PlumeHold
  postHold : Timer
deriving DecidableEq, Repr

/-! ## Demands and regimes -/

/-- An entry of the demand list (R93). A local entry has no hold. -/
structure DemandEntry where
  station : Fin 8
  source : Fin 16
  regime : DemandRegime
  level : Nat
  hold : Timer
  stamp : Nat
deriving DecidableEq, Repr

/-- The demand list (R93, R94). -/
structure DemandList where
  entries : List DemandEntry
  nextStamp : Nat
deriving DecidableEq, Repr

/-- A SAFE·n member: the reasons the message carried and the hold remaining in ms (R101). -/
structure SafeMember where
  force : Bool
  rule : Bool
  holdMs : Nat
deriving DecidableEq, Repr

/-- The safe-source set (R101). -/
structure SafeSet where
  force : Bool
  conflict : Bool
  rule : Bool
  remote : Vector (Option SafeMember) 8
deriving DecidableEq, Repr

/-- An emitter: HELD or OFF, and its repeat timer (R105, R106). -/
structure Emitter where
  held : Bool
  timer : Timer
deriving DecidableEq, Repr

/-- The emitters of a FORWARD or CABIN station: one per demand source, by its number, and the safe emitter (R105, R106). -/
structure Emitters where
  demand : Vector Emitter 16
  safe : Emitter
deriving DecidableEq, Repr

/-- The door scrub (R108). -/
structure Scrub where
  active : Bool
  timer : Timer
  check : Timer
deriving DecidableEq, Repr

/-! ## Mix law and ramps -/

/-- What the latest computation produced (R113). -/
inductive MixKind | none | full | blower
deriving DecidableEq, Repr

/-- The computation record of the mix law unit (R113). -/
structure MixRecord where
  kind : MixKind
  bo : Option Nat
  bc : Option Nat
  co2 : Option Nat
  floor : Nat
  wish : Nat
  fresh : Nat
  recirc : Nat
  damper : Option Nat
  blower : Option Nat
deriving DecidableEq, Repr

/-- A ramp channel (R127). It is MOVING exactly while `moving` is set. -/
structure Channel where
  moving : Bool
  output : Nat
  target : Nat
  origin : Nat
  length : Nat
  timer : Timer
deriving DecidableEq, Repr

/-- The ramp unit (R127, R135). The outputs are the codes on the DAMPER and BLOWER pins. -/
structure RampUnit where
  damper : Channel
  blower : Channel
  settle : Timer
  settled : Bool
deriving DecidableEq, Repr

/-! ## Accounting, rules, flags -/

/-- A counter and its rollover indicator (R141). -/
structure CounterCell where
  count : Nat
  rollover : Bool
deriving DecidableEq, Repr

/-- The accounting unit: the 62 counters of the nine groups in the order of R141, the filter load and the one-second
timer (R141, R142, section 9.4). -/
structure Accounting where
  counters : Vector CounterCell 62
  carry : Nat
  ngAccumulator : Nat
  mgCount : Nat
  timer : Timer
deriving DecidableEq, Repr

/-- The state of one rule (R152). -/
structure RuleState where
  firing : Bool
  fireTally : Nat
  releaseTally : Nat
deriving DecidableEq, Repr

/-- The flags, by number, and the ALERT pin (R159, R160). -/
structure FlagUnit where
  bits : Vector Bool 25
  alert : Bool
deriving DecidableEq, Repr

/-! ## The link -/

/-- A frame held in a mailbox. `offered`: it is the frame on offer. `acceptsReset`: it is the ACCEPTED frame of the
pending RESET ALL (R165, R177, log 28). -/
structure Held where
  frame : Frame
  offered : Bool
  acceptsReset : Bool
deriving DecidableEq, Repr

/-- The mailboxes of R164: single frames, one per source and per slot, and the two FIFOs, the oldest first. -/
structure Boxes where
  safe : Option Held
  hush : Option Held
  sight : List Held
  travel : Option Held
  demand : Vector (Option Held) 16
  status : Option Held
  reading : Vector (Option Held) 16
  answer : List Held
deriving DecidableEq, Repr

/-- The sending side: mailboxes and the frame on offer (R164, R165). `abandoned`: the frames that a reset or a withdrawal
took off the wire's offer before their outcomes, which are still to come, the oldest first (log 14). -/
structure Transmit where
  boxes : Boxes
  offer : Option Frame
  abandoned : List Frame
deriving DecidableEq, Repr

/-- The link state (R166). -/
inductive LinkState | active | passive | withdrawn
deriving DecidableEq, Repr

/-- The failure score, link state and timers of the link controller (R165, R166, R167). -/
structure Link where
  score : Nat
  state : LinkState
  withdrawal : Timer
  status : Timer
  reading : Timer
deriving DecidableEq, Repr

/-- The hush guard: whether it is a factor-4 guard, and its time left (R170). -/
structure Guard where
  four : Bool
  leftMs : Nat
deriving DecidableEq, Repr

/-- The receiving side: receive queue and hush guard (R169, R170). -/
structure Receive where
  queue : List Frame
  guard : Option Guard
deriving DecidableEq, Repr

/-- One part of the stretch: a factor of 1, 2 or 4, and the time left to its end (R171). -/
structure StretchFactor where
  factor : Nat
  left : Timer
deriving DecidableEq, Repr

/-- The stretch: the factor f of the peer table's limits, and the interval factor of the routine timers (R171). -/
structure Stretch where
  peer : StretchFactor
  interval : StretchFactor
deriving DecidableEq, Repr

/-! ## The station -/

/-- The state of one HM-620 station, and the commands waiting for it (log 1). -/
structure State where
  pending : List Instr
  pins : Pins
  startup : Startup
  cfg : Cfg
  sequencer : Sequencer
  inputs : InputUnit
  source : Source
  tracker : Tracker
  peers : Vector PeerEntry 8
  detector : Detector
  timeline : Timeline
  demands : DemandList
  safe : SafeSet
  regime : Regime
  emitters : Emitters
  scrub : Scrub
  mix : MixRecord
  ramps : RampUnit
  accounting : Accounting
  rules : Vector RuleState 8
  flags : FlagUnit
  transmit : Transmit
  link : Link
  receive : Receive
  stretch : Stretch
deriving DecidableEq, Repr

/-! ## The state after reset, block by block -/

/-- A number from pin levels, the first pin its least significant bit. -/
def bitsValue : List Bool → Nat
  | [] => 0
  | b :: bs => (if b then 1 else 0) + 2 * bitsValue bs

/-- The own number the straps SN0–SN2 give (R180). SN0 is bit 0 and high is 1: the model's choice (log 44). -/
def Pins.ownNumber (p : Pins) : Fin 8 := ⟨bitsValue p.sn.toList % 8, Nat.mod_lt _ (by decide)⟩

/-- The role strap value the straps RS0–RS1 give (R180). RS0 is bit 0 and high is 1: the model's choice (log 44). -/
def Pins.roleStrap (p : Pins) : Fin 4 := ⟨bitsValue p.rs.toList % 4, Nat.mod_lt _ (by decide)⟩

/-- Every pin low (log 4). -/
def Pins.low : Pins :=
  { din := tabulate fun _ => false, force := false, ign := false, rev := false
    sn := tabulate fun _ => false, rs := tabulate fun _ => false }

/-- The effective start slot of the sweep (R2). -/
def sweepStart (c : Cfg) : Fin 16 := if c.stopSlot < c.startSlot then c.stopSlot else c.startSlot

/-- A slot lies in the sweep range (R2). -/
def inSweep (c : Cfg) (i : Fin 16) : Bool := decide (sweepStart c ≤ i ∧ i ≤ c.stopSlot)

/-- The value record of a slot after a reset, before its timers start (R17). The warm-up elapsed state, which no rule gives
an ABSENT slot, is clear (log 42). -/
def resetRecord (c : Cfg) (i : Fin 16) : SlotRecord :=
  { quality := if inSweep c i && c.slots[i].channel.isSome then .warming else .absent
    value := 0, seeded := false, burden := none, warmedUp := false, warmUp := none, suspect := none }

/-- The sequencer after a reset (R5, R17): not running, at the start slot. -/
def resetSequencer (c : Cfg) : Sequencer :=
  { records := tabulate fun i => resetRecord c i, position := sweepStart c, dwell := none }

/-- An input at start: its debounced level is the pin's, its timer stopped (R22). -/
def settledInput (level : Bool) : Debounced := { level := level, timer := none }

/-- The input unit after a reset (R22). -/
def resetInputs (p : Pins) : InputUnit :=
  { din := mapVector settledInput p.din, force := settledInput p.force, ign := settledInput p.ign
    rev := settledInput p.rev }

/-- The travel source after a reset (R44). -/
def resetSource : Source :=
  { accumulator := 0, count := 0, parts := tabulate fun _ => 0, current := 0, speed := 0, standstill := true
    sequence := 0, travelTimer := none, standstillTimer := none }

/-- The travel tracker after a reset (R45). -/
def resetTracker : Tracker :=
  { state := .unsynced, reference := none, lastCount := 0, lastSequence := 0, speed := 0, ignition := true
    reverse := false, loss := none }

/-- The peer table after a reset (R38). -/
def resetPeers : Vector PeerEntry 8 := tabulate fun _ => { presence := .absent, tally := 0 }

/-- The sighting detector after a reset (R69); an unseeded baseline reads 0 (log 11). -/
def resetDetector : Detector :=
  { state := .clear, sequence := 0, dsf := 0, peak := 0, species := ⟨false, false⟩, travelLost := false
    update := none, maxOpen := none, baselines := tabulate fun _ => { value := 0, seeded := false } }

/-- The plume timeline after a reset (R87), its lead the lead margin of the configuration held (log 43). -/
def resetTimeline (c : Cfg) : Timeline :=
  { records := [], nextCreated := 0, lead := c.timeline.leadMargin, hold := .off, postHold := none }

/-- The demand list after a reset (R110). -/
def resetDemandList : DemandList := { entries := [], nextStamp := 0 }

/-- The safe-source set after a reset (R110). -/
def resetSafeSet : SafeSet :=
  { force := false, conflict := false, rule := false, remote := tabulate fun _ => none }

/-- An emitter that is OFF (R110). -/
def emitterOff : Emitter := { held := false, timer := none }

/-- The emitters after a reset (R110). -/
def resetEmitters : Emitters := { demand := tabulate fun _ => emitterOff, safe := emitterOff }

/-- The door scrub that is OFF (R110). -/
def scrubOff : Scrub := { active := false, timer := none, check := none }

/-- The computation record after a reset (R125). -/
def resetMix : MixRecord :=
  { kind := .none, bo := none, bc := none, co2 := none, floor := 0, wish := 0, fresh := 1000, recirc := 0
    damper := none, blower := none }

/-- A ramp channel after a reset (R138); P0 and Lmove have no meaning in IDLE and read 0 (log 11). -/
def resetChannel : Channel :=
  { moving := false, output := 0, target := 0, origin := 0, length := 0, timer := none }

/-- The ramp unit after a reset (R138). -/
def resetRamps : RampUnit := { damper := resetChannel, blower := resetChannel, settle := none, settled := false }

/-- A counter at 0 with its indicator clear (R149, R151). -/
def zeroCell : CounterCell := { count := 0, rollover := false }

/-- The accounting unit after a reset (R151). -/
def resetAccounting : Accounting :=
  { counters := tabulate fun _ => zeroCell, carry := 0, ngAccumulator := 0, mgCount := 0, timer := none }

/-- The rules after a reset (R157). -/
def resetRules : Vector RuleState 8 := tabulate fun _ => { firing := false, fireTally := 0, releaseTally := 0 }

/-- The flag unit after a reset (R163). -/
def resetFlags : FlagUnit := { bits := tabulate fun _ => false, alert := false }

/-- Every mailbox and FIFO empty (R173). -/
def emptyBoxes : Boxes :=
  { safe := none, hush := none, sight := [], travel := none, demand := tabulate fun _ => none, status := none
    reading := tabulate fun _ => none, answer := [] }

/-- The sending side after a reset (R173). -/
def resetTransmit : Transmit := { boxes := emptyBoxes, offer := none, abandoned := [] }

/-- The link's score, state and timers after a reset (R173). -/
def resetLinkState : Link := { score := 0, state := .active, withdrawal := none, status := none, reading := none }

/-- The receiving side after a reset (R173). -/
def resetReceive : Receive := { queue := [], guard := none }

/-- A part of the stretch whose factor is 1 has no end (R171). -/
def noStretch : StretchFactor := { factor := 1, left := none }

/-- The stretch after a reset (R173). -/
def resetStretch : Stretch := { peer := noStretch, interval := noStretch }

/-- The start-up controller after a reset: the straps read, LOADING (R180). Role and configuration are decided at the
end of LOADING; until then the strap's role and its factory defaults stand in (log 9). -/
def resetStartup (p : Pins) : Startup :=
  { station := .loading, role := roleOfStrap p.roleStrap.val, own := p.ownNumber, strap := p.roleStrap
    joining := none, pendingReset := false }

/-- The station just after a power-on reset with these pin levels and these commands waiting: every block in the state
its chapter gives for a power-on reset, the station in LOADING (R180, R185). The configuration in use, from which the lead
is taken too, is the placeholder (logs 9, 43). -/
def State.afterReset (p : Pins) (pending : List Instr) : State :=
  let c := factoryDefault (roleOfStrap p.roleStrap.val)
  { pending := pending, pins := p, startup := resetStartup p, cfg := c, sequencer := resetSequencer c
    inputs := resetInputs p, source := resetSource, tracker := resetTracker, peers := resetPeers
    detector := resetDetector, timeline := resetTimeline c, demands := resetDemandList, safe := resetSafeSet
    regime := .auto, emitters := resetEmitters, scrub := scrubOff, mix := resetMix, ramps := resetRamps
    accounting := resetAccounting, rules := resetRules, flags := resetFlags, transmit := resetTransmit
    link := resetLinkState, receive := resetReceive, stretch := resetStretch }

/-- The machine right after reset: a power-on reset with every pin low (log 4) and no command waiting. -/
def State.reset : State := State.afterReset Pins.low []

end Sys2Proof.Machine
end

