-- ==== Sys2Proof/Machine/Flags.lean ====
section
/-! DEFINITION. The flag unit (section 10.4): reading and writing flags, their classes, the ALERT pin and the summary. -/

namespace Sys2Proof.Machine

open Sys2Proof

/-- The 25 flags in the order of the flag table (section 10.4). -/
def allFlags : List Flag :=
  [.configDefault, .configAdjusted, .sensorFault, .stall, .filterWorn, .linkPassive, .linkWithdrawn, .travelLost,
    .safeActive, .conflict] ++
  [.rule 0, .rule 1, .rule 2, .rule 3, .rule 4, .rule 5, .rule 6, .rule 7] ++
  [.rxqOverflow, .timelineOverflow, .demandOverflow, .counterRollover, .travelDiscontinuity, .peerLost, .lampTest]

/-- The seven latched flags in the order of the CLEAR_FLAGS mask, bit 0 first (R176). -/
def latchedFlags : List Flag :=
  [.rxqOverflow, .timelineOverflow, .demandOverflow, .counterRollover, .travelDiscontinuity, .peerLost, .lampTest]

/-- Whether a flag is set (R159). -/
def State.flag (s : State) (f : Flag) : Bool := s.flags.bits[f.index]

/-- The class of a flag: the class map's, and LAMP for LAMP_TEST whatever the configuration holds (R159). -/
def flagClass (c : Cfg) (f : Flag) : FlagClass := if f = .lampTest then .lamp else c.classes[f.index]

/-- The ALERT pin is asserted while at least one set flag has class LAMP (R160). -/
def alertOf (c : Cfg) (bits : Vector Bool 25) : Bool :=
  allFlags.any fun f => bits[f.index] && decide (flagClass c f = .lamp)

/-- Setting or clearing a flag; the ALERT pin is decided in the same event (R160). -/
def State.writeFlag (s : State) (f : Flag) (b : Bool) : State :=
  let bits := s.flags.bits.set f.index b
  { s with flags := { bits := bits, alert := alertOf s.cfg bits } }

/-- Setting a flag. -/
def State.setFlag (s : State) (f : Flag) : State := s.writeFlag f true

/-- Clearing a flag. -/
def State.clearFlag (s : State) (f : Flag) : State := s.writeFlag f false

/-- The ALERT pin decided again, as when the class map of a new configuration begins to apply (R160, R163). -/
def State.decideAlert (s : State) : State :=
  { s with flags := { s.flags with alert := alertOf s.cfg s.flags.bits } }

/-- The flags of the seven summary groups, in the order SENSOR, ACTUATOR, FILTER, LINK, SAFE, RULES, HOUSE (R160). -/
def summaryGroups : List (List Flag) :=
  [ [.sensorFault], [.stall], [.filterWorn]
  , [.linkPassive, .linkWithdrawn, .rxqOverflow, .peerLost, .travelLost, .travelDiscontinuity]
  , [.safeActive, .conflict]
  , [.rule 0, .rule 1, .rule 2, .rule 3, .rule 4, .rule 5, .rule 6, .rule 7]
  , [.configDefault, .configAdjusted, .timelineOverflow, .demandOverflow, .counterRollover, .lampTest] ]

/-- A group's indication: some flag of it with class REPORT or LAMP is set (R160). -/
def State.groupIndication (s : State) (g : List Flag) : Bool :=
  g.any fun f => s.flag f && decide (flagClass s.cfg f ≠ .none)

/-- The summary: the seven group indications in bits 0–6 and the state of the ALERT pin in bit 7 (R160, R174). -/
def State.summary (s : State) : Nat := bitsValue (summaryGroups.map s.groupIndication ++ [s.flags.alert])

end Sys2Proof.Machine
end

