-- ==== Sys2Proof/Machine/Ops.lean ====
section
/-! DEFINITION. The operations every block uses: counters (R141), mailboxes and the choice of the frame on offer
(R164, R165, R166), and the end of a command. -/

namespace Sys2Proof.Machine

open Sys2Proof

/-- Milliseconds of a time given in seconds. -/
def seconds (n : Nat) : Nat := n * 1000

/-! ## Counters (R141) -/

/-- The three exposure groups (R141). -/
inductive Exposure | pm | no2 | co2
deriving DecidableEq, Repr

/-- The counters of the nine groups, in the order of R141. The six exposure bins are numbered 0 (below 250) to 5 (UNKNOWN). -/
inductive Counter
  | bin (g : Exposure) (b : Fin 6)
  | dose (g : Exposure)
  | doorOpenings | doorOpenSeconds | scrubsStarted | scrubsEndedEarly
  | regimeSeconds (r : Regime) | damperTravel | plumeClosures
  | sightingsOpened | forcedCloses | updatesQueued
  | created | duplicates | ignored | evicted | dropped | capped | reverseDropped
  | raised | refreshed | refused | demandEvicted | expired | purged | discarded
  | framesSent | sendFailures | superseded | withdrawals | accepted | rejected | receiveOverflows
  | unknownKinds | hushSent | hushHeard | travelIgnored | discontinuities
deriving DecidableEq, Repr

/-- The place of an exposure group among the three. -/
def Exposure.base : Exposure → Fin 3
  | .pm => 0
  | .no2 => 1
  | .co2 => 2

/-- The code of a regime in the order of R141's INLET counters, which is also that of STATUS (R174). -/
def regimeCode : Regime → Fin 6
  | .auto => 0
  | .recirc => 1
  | .flush => 2
  | .scrub => 3
  | .safe => 4
  | .idle => 5

/-- The place of a counter among the 62, group by group in the order of R141. -/
def Counter.index : Counter → Fin 62
  | .bin g b => ⟨7 * g.base.val + b.val, by omega⟩
  | .dose g => ⟨7 * g.base.val + 6, by omega⟩
  | .doorOpenings => 21
  | .doorOpenSeconds => 22
  | .scrubsStarted => 23
  | .scrubsEndedEarly => 24
  | .regimeSeconds r => ⟨25 + (regimeCode r).val, by omega⟩
  | .damperTravel => 31
  | .plumeClosures => 32
  | .sightingsOpened => 33
  | .forcedCloses => 34
  | .updatesQueued => 35
  | .created => 36
  | .duplicates => 37
  | .ignored => 38
  | .evicted => 39
  | .dropped => 40
  | .capped => 41
  | .reverseDropped => 42
  | .raised => 43
  | .refreshed => 44
  | .refused => 45
  | .demandEvicted => 46
  | .expired => 47
  | .purged => 48
  | .discarded => 49
  | .framesSent => 50
  | .sendFailures => 51
  | .superseded => 52
  | .withdrawals => 53
  | .accepted => 54
  | .rejected => 55
  | .receiveOverflows => 56
  | .unknownKinds => 57
  | .hushSent => 58
  | .hushHeard => 59
  | .travelIgnored => 60
  | .discontinuities => 61

/-- First place and size of each counter group, by the group argument 0–8 of QUERY and CLEAR_COUNTERS (R141, R176). -/
def groupRange : Nat → Nat × Nat
  | 0 => (0, 7)
  | 1 => (7, 7)
  | 2 => (14, 7)
  | 3 => (21, 4)
  | 4 => (25, 8)
  | 5 => (33, 3)
  | 6 => (36, 7)
  | 7 => (43, 7)
  | 8 => (50, 12)
  | _ => (0, 0)

/-- The largest value of a counter, and of the mg count and a silence tally (R141, R148, R23). -/
def maxCount : Nat := 4294967295

/-- The cell of a counter after an increment by `n`: it takes the sum, or wraps and sets its indicator (R141). -/
def CounterCell.add (c : CounterCell) (n : Nat) : CounterCell :=
  if c.count + n ≤ maxCount then { c with count := c.count + n }
  else { count := c.count + n - (maxCount + 1), rollover := true }

/-- An increment of a counter by `n`; a wrap sets COUNTER_ROLLOVER (R141). -/
def State.bump (s : State) (c : Counter) (n : Nat) : State :=
  let cell := s.accounting.counters[c.index]
  let t := { s with accounting := { s.accounting with counters := s.accounting.counters.set c.index (cell.add n) } }
  if cell.count + n ≤ maxCount then t else t.setFlag .counterRollover

/-- “Counted”: the counter is incremented by one (00, Names and words). -/
def State.count (s : State) (c : Counter) : State := s.bump c 1

/-! ## Frames -/

end Sys2Proof.Machine

namespace Sys2Proof

/-- The kind of a frame: identifier bits 7–10 (R174). -/
def Frame.kind (f : Frame) : Nat := f.id.toNat / 128

/-- The index of a frame: identifier bits 3–6 (R174). -/
def Frame.index (f : Frame) : Fin 16 := ⟨f.id.toNat / 8 % 16, Nat.mod_lt _ (by decide)⟩

/-- The station part of a frame: identifier bits 0–2 (R174). -/
def Frame.station (f : Frame) : Fin 8 := ⟨f.id.toNat % 8, Nat.mod_lt _ (by decide)⟩

/-- Byte `i` of a frame. -/
def Frame.byte (f : Frame) (i : Nat) : Nat := (f.data.getD i 0#8).toNat

/-- The two-byte field at byte `i`, high byte first (R174). -/
def Frame.word (f : Frame) (i : Nat) : Nat := f.byte i * 256 + f.byte (i + 1)

end Sys2Proof

namespace Sys2Proof.Machine

open Sys2Proof

/-- A frame this station forms: its own number in the station part (R174, R175). -/
def ownFrame (s : State) (kind index : Nat) (data : List Byte) : Frame :=
  { id := BitVec.ofNat 11 (kind * 128 + index * 8 + s.startup.own.val), data := data }

/-- A one-byte field. -/
def byte1 (n : Nat) : List Byte := [BitVec.ofNat 8 n]

/-- A two-byte field, high byte first (R174). -/
def byte2 (n : Nat) : List Byte := [BitVec.ofNat 8 (n / 256), BitVec.ofNat 8 n]

/-! ## Mailboxes (R164) -/

/-- The mailboxes, as places a frame can be held. -/
inductive Box
  | safe | hush | sight | travel
  | demand (source : Fin 16)
  | status
  | reading (slot : Fin 16)
  | answer
deriving DecidableEq, Repr

/-- Content just queued: not on offer. -/
def freshHeld (f : Frame) : Held := { frame := f, offered := false, acceptsReset := false }

/-- A SIGHT frame is an UPDATE (R174: phase 2 in bits 0–2 of byte 0). -/
def isUpdate (f : Frame) : Bool := decide (f.byte 0 % 8 = 2)

/-- A queued UPDATE of the new frame's sequence replaced in its place (R164). Of several the oldest is: the model's choice
(log 46). -/
def replaceUpdate (new : Held) : List Held → List Held
  | [] => []
  | h :: hs =>
    if isUpdate h.frame && decide (h.frame.byte 1 = new.frame.byte 1) then new :: hs else h :: replaceUpdate new hs

/-- A full SIGHT FIFO with the new frame taken in by the SIGHT rule (R164). -/
def putSightFull (fifo : List Held) (new : Held) : List Held :=
  if isUpdate new.frame && fifo.any (fun h => isUpdate h.frame && decide (h.frame.byte 1 = new.frame.byte 1)) then
    replaceUpdate new fifo
  else if fifo.any (fun h => isUpdate h.frame) then fifo.eraseP (fun h => isUpdate h.frame) ++ [new]
  else fifo.drop 1 ++ [new]

/-- The capacity of the SIGHT FIFO (R164). -/
def sightCapacity : Nat := 4

/-- The capacity of the ANSWER FIFO (R164). -/
def answerCapacity : Nat := 16

/-- Whether a single mailbox, or a full FIFO, loses a frame to new content (R164). -/
def Boxes.supersedes (b : Boxes) : Box → Bool
  | .safe => b.safe.isSome
  | .hush => b.hush.isSome
  | .sight => decide (sightCapacity ≤ b.sight.length)
  | .travel => b.travel.isSome
  | .demand n => b.demand[n].isSome
  | .status => b.status.isSome
  | .reading n => b.reading[n].isSome
  | .answer => decide (answerCapacity ≤ b.answer.length)

/-- The mailboxes with new content taken by the rule of its mailbox (R164). -/
def Boxes.put (b : Boxes) (box : Box) (h : Held) : Boxes :=
  match box with
  | .safe => { b with safe := some h }
  | .hush => { b with hush := some h }
  | .sight =>
    { b with sight := if b.sight.length < sightCapacity then b.sight ++ [h] else putSightFull b.sight h }
  | .travel => { b with travel := some h }
  | .demand n => { b with demand := b.demand.set n (some h) }
  | .status => { b with status := some h }
  | .reading n => { b with reading := b.reading.set n (some h) }
  | .answer => { b with answer := if b.answer.length < answerCapacity then b.answer ++ [h] else b.answer }

/-- The mailbox content with new frames held in, whatever the station state; a loss is counted as superseded (R164). -/
def State.hold (s : State) (box : Box) (h : Held) : State :=
  let t := { s with transmit := { s.transmit with boxes := s.transmit.boxes.put box h } }
  if s.transmit.boxes.supersedes box then t.count .superseded else t

/-- Queuing content to a mailbox. In CONFLICT only STATUS is kept; other content is discarded without a count (R164). -/
def State.post (s : State) (box : Box) (f : Frame) : State :=
  if s.startup.station = .conflict ∧ box ≠ .status then s else s.hold box (freshHeld f)

/-- Applying `f` to every held frame: `none` removes it. -/
def Boxes.update (b : Boxes) (f : Held → Option Held) : Boxes :=
  { safe := b.safe.bind f
    hush := b.hush.bind f
    sight := b.sight.filterMap f
    travel := b.travel.bind f
    demand := mapVector (·.bind f) b.demand
    status := b.status.bind f
    reading := mapVector (·.bind f) b.reading
    answer := b.answer.filterMap f }

/-! ## The frame on offer (R165, R166) -/

/-- A mailbox with the frame that competes for it, in a list of at most one. -/
def candidate (box : Box) (o : Option Held) : List (Box × Held) := (o.map fun h => (box, h)).toList

/-- The frames that compete to be offered: each mailbox's, and each FIFO's oldest (R165). -/
def Boxes.candidates (b : Boxes) : List (Box × Held) :=
  candidate .safe b.safe ++ candidate .hush b.hush ++ candidate .sight b.sight.head? ++ candidate .travel b.travel ++
  (List.finRange 16).flatMap (fun n => candidate (.demand n) b.demand[n]) ++ candidate .status b.status ++
  (List.finRange 16).flatMap (fun n => candidate (.reading n) b.reading[n]) ++ candidate .answer b.answer.head?

/-- The ANSWER FIFO holds the ACCEPTED frame of a pending RESET ALL (R166, R177). -/
def Boxes.holdsAccept (b : Boxes) : Bool := b.answer.any (·.acceptsReset)

/-- The mailboxes offered in a station state: none in LOADING (R173), STATUS and ANSWER alone in CONFLICT (R166). -/
def stationOffers (st : Station) (box : Box) : Bool :=
  match st with
  | .loading => false
  | .joining => true
  | .running => true
  | .conflict => decide (box = .status) || decide (box = .answer)

/-- A mailbox is READING or ANSWER: a PASSIVE link does not offer it (R166). -/
def Box.heldBack : Box → Bool
  | .reading _ => true
  | .answer => true
  | _ => false

/-- The mailboxes offered in a link state: none in WITHDRAWN, all but READING and ANSWER in PASSIVE, with ANSWER offered
all the same while it holds the ACCEPTED frame of a pending RESET ALL (R166). -/
def linkOffers (l : LinkState) (holdsAccept : Bool) (box : Box) : Bool :=
  match l with
  | .active => true
  | .passive => !box.heldBack || (decide (box = .answer) && holdsAccept)
  | .withdrawn => false

/-- The mailboxes the controller may offer from in its present state (R166, R173). -/
def State.mayOffer (s : State) (box : Box) : Bool :=
  stationOffers s.startup.station box && linkOffers s.link.state s.transmit.boxes.holdsAccept box

/-- The frames the controller may offer now. -/
def State.offerable (s : State) : List (Box × Held) := s.transmit.boxes.candidates.filter fun c => s.mayOffer c.1

/-- The candidate with the lowest identifier (R165). -/
def lowestId : List (Box × Held) → Option (Box × Held)
  | [] => none
  | c :: cs =>
    match lowestId cs with
    | none => some c
    | some d => if d.2.frame.id < c.2.frame.id then some d else some c

/-- A held frame marked as on offer. -/
def Held.markOffered (h : Held) : Held := { h with offered := true }

/-- The first frame of a FIFO marked as on offer. -/
def markHead : List Held → List Held
  | [] => []
  | h :: hs => h.markOffered :: hs

/-- The frame a mailbox competes with, marked as on offer. -/
def Boxes.mark (b : Boxes) (box : Box) : Boxes :=
  match box with
  | .safe => { b with safe := b.safe.map Held.markOffered }
  | .hush => { b with hush := b.hush.map Held.markOffered }
  | .sight => { b with sight := markHead b.sight }
  | .travel => { b with travel := b.travel.map Held.markOffered }
  | .demand n => { b with demand := b.demand.set n (b.demand[n].map Held.markOffered) }
  | .status => { b with status := b.status.map Held.markOffered }
  | .reading n => { b with reading := b.reading.set n (b.reading[n].map Held.markOffered) }
  | .answer => { b with answer := markHead b.answer }

/-- When no frame is on offer, the controller chooses the one with the lowest identifier among those it may offer (R165). -/
def State.chooseOffer (s : State) : State :=
  match s.transmit.offer, lowestId s.offerable with
  | none, some c =>
    { s with transmit := { s.transmit with boxes := s.transmit.boxes.mark c.1, offer := some c.2.frame } }
  | _, _ => s

/-- The end of a command: the event has been taken whole, and the controller, when nothing is on offer, chooses (log 13). -/
def finish (s : State) : Host.Outcome State Fault Refusal := .next s.chooseOffer

/-! ## Restarting timers -/

/-- The time the routine timers restart with: the interval (100 ms units) × the interval factor (R167). -/
def routinePeriod (units factor : Nat) : Nat := units * factor * 100

end Sys2Proof.Machine
end

