-- ==== Sys2Proof/Machine/Operands.lean ====
section
/-! DEFINITION. The values the blocks read from one another (usable slot values, combined burden, function levels, peer
readings, cabin peer, active regime) and the forms of the air bus messages (R174). -/

namespace Sys2Proof

/-- The kinds that have a burden (R9). -/
def Kind.isPollutant : Kind → Bool
  | .pm => true
  | .no2 => true
  | .co2 => true
  | .rh => false
  | .temp => false
  | .dp => false
  | .feedback => false

/-- A rule's action is DEMAND. -/
def RuleAction.isDemand : RuleAction → Bool
  | .demand _ _ => true
  | .none => false
  | .safe => false

/-- The quality lets a reading be known: GOOD or SUSPECT (R37). -/
def Quality.isKnown : Quality → Bool
  | .good => true
  | .suspect => true
  | .warming => false
  | .fault => false
  | .absent => false

end Sys2Proof

namespace Sys2Proof.Machine

open Sys2Proof

/-! ## Slots (R15, R16) -/

/-- A slot's S and B are usable: quality GOOD or SUSPECT and S seeded (R15). -/
def SlotRecord.usable (r : SlotRecord) : Bool :=
  match r.quality with
  | .good => r.seeded
  | .suspect => r.seeded
  | .warming => false
  | .fault => false
  | .absent => false

/-- The smoothed value of a slot, where it is known to its users (R15). -/
def State.slotValue (s : State) (i : Fin 16) : Option Nat :=
  let r := s.sequencer.records[i]
  if r.usable then some r.value else none

/-- The burden of a slot, where it is known to its users (R15). -/
def State.slotBurden (s : State) (i : Fin 16) : Option Nat :=
  let r := s.sequencer.records[i]
  if r.usable then r.burden else none

/-- The home location of a role (R16). -/
def homeLocation : Role → Location
  | .forward => .outside
  | .inlet => .outside
  | .cabin => .cabin

/-- The larger of two values either of which may be unknown. -/
def maxKnown : Option Nat → Option Nat → Option Nat
  | none, b => b
  | a, none => a
  | some a, some b => some (max a b)

/-- A slot's part in the combined burden: its usable burden, when it is a pollutant slot at the home location (R16). -/
def State.homeBurden (s : State) (i : Fin 16) : Option Nat :=
  match s.slotBurden i with
  | none => none
  | some b =>
    let c := s.cfg.slots[i]
    if c.kind.isPollutant && decide (c.location = homeLocation s.startup.role) then some b else none

/-- The combined burden, or unknown (R16). -/
def State.combinedBurden (s : State) : Option Nat :=
  (List.finRange 16).foldl (fun acc i => maxKnown acc (s.homeBurden i)) none

/-- The lowest-numbered slot in the sweep range with a kind and location (R143, R147). -/
def State.firstSlot (s : State) (k : Kind) (l : Location) : Option (Fin 16) :=
  (List.finRange 16).find? fun i =>
    inSweep s.cfg i && decide (s.cfg.slots[i].kind = k) && decide (s.cfg.slots[i].location = l)

/-! ## Function levels (R18, R20) -/

/-- A discrete input is active: its debounced level read with its polarity (R18). -/
def State.inputActive (s : State) (i : Fin 4) : Bool :=
  match s.cfg.inputs[i].polarity with
  | .activeHigh => s.inputs.din[i].level
  | .activeLow => !s.inputs.din[i].level

/-- The function an input has now: NONE in LOADING (R22), and DOOR is NONE on a FORWARD or INLET (R18). -/
def State.inputFunction (s : State) (i : Fin 4) : InputFunction :=
  if s.startup.station = .loading then .none
  else if s.cfg.inputs[i].function = .door ∧ s.startup.role ≠ .cabin then .none
  else s.cfg.inputs[i].function

/-- The function level of a function: some input that has it is active (R20). -/
def State.functionLevel (s : State) (f : InputFunction) : Bool :=
  (List.finRange 4).any fun i => decide (s.inputFunction i = f) && s.inputActive i

/-- The force request: the FORCE pin's debounced level, or the function level of FORCE_ALT (R20). -/
def State.forceRequest (s : State) : Bool := s.inputs.force.level || s.functionLevel .forceAlt

/-- The any door open level (R20). -/
def State.anyDoorOpen (s : State) : Bool := s.functionLevel .door

/-- The driver's switch behind a demand source: DRIVER_RECIRC or DRIVER_FLUSH (R107). -/
def State.recircSwitch (s : State) : Bool := s.functionLevel .switchRecirc

/-- The flush switch (R107). -/
def State.flushSwitch (s : State) : Bool := s.functionLevel .switchFlush

/-! ## Rules -/

/-- The rule safe condition: at least one rule with a SAFE action is FIRING (R156). -/
def State.ruleSafe (s : State) : Bool :=
  (List.finRange 8).any fun n => s.rules[n].firing && decide (s.cfg.rules[n].action = .safe)

/-! ## Peers (R33, R34, R37) -/

/-- The fields of a PRESENT entry. -/
def Presence.info? : Presence → Option PeerInfo
  | .present i => some i
  | .absent => none
  | .silent _ => none

/-- The entry is SILENT. -/
def Presence.isSilent : Presence → Bool
  | .silent _ => true
  | .absent => false
  | .present _ => false

/-- The staleness limit: stale time × f (R33). -/
def State.staleLimit (s : State) : Nat := s.cfg.staleTimeMs * s.stretch.peer.factor

/-- A record is stale: its age has reached the limit, or it became stale earlier and has not been updated since (R33, log 25). -/
def State.isStale (s : State) (r : Reading) : Bool := r.stale || decide (s.staleLimit ≤ r.ageMs)

/-- A record's key is (kind, location) (R24). -/
def Reading.hasKey (r : Reading) (k : Kind) (l : Location) : Bool := decide (r.kind = k ∧ r.location = l)

/-- The value of a peer reading, when the five conditions of R37 hold. -/
def State.peerValue (s : State) (n : Fin 8) (k : Kind) (l : Location) : Option Nat :=
  match s.peers[n].presence.info? with
  | none => none
  | some i =>
    match i.readings.find? (·.hasKey k l) with
    | none => none
    | some r =>
      if !s.isStale r && r.quality.isKnown && (!k.isPollutant || r.burden.isSome) then some r.value else none

/-- The entry can be the cabin peer: PRESENT, role CABIN, announced state other than CONFLICT (R34). -/
def PeerEntry.isCabin (e : PeerEntry) : Bool :=
  match e.presence with
  | .present i => decide (i.role = .cabin) && decide (i.announced ≠ .conflict)
  | .absent => false
  | .silent _ => false

/-- The cabin peer: the lowest-numbered entry that qualifies (R34). -/
def State.cabinPeer (s : State) : Option (Fin 8) := (List.finRange 8).find? fun n => s.peers[n].isCabin

/-- The combined burden held for the cabin peer (R34, R37, R116). -/
def State.cabinBurden (s : State) : Option Nat :=
  match s.cabinPeer with
  | none => none
  | some n => s.peers[n].presence.info?.bind (·.burden)

/-- A value of the cabin peer's reading list (R116, R147). -/
def State.cabinReading (s : State) (k : Kind) : Option Nat :=
  match s.cabinPeer with
  | none => none
  | some n => s.peerValue n k .cabin

/-! ## Regime, speed, plumes -/

/-- The active regime reported in STATUS: the INLET's, or the one the station state gives on the other roles (R103). -/
def State.activeRegime (s : State) : Regime :=
  match s.startup.role with
  | .inlet => s.regime
  | .forward | .cabin =>
    match s.startup.station with
    | .joining => .safe
    | .conflict => .safe
    | .running => .auto
    | .loading => .auto

/-- The tracker's speed, known while it is TRACKING (R52). -/
def State.knownSpeed (s : State) : Option Nat := if s.tracker.state = .tracking then some s.tracker.speed else none

/-- The truck is moving at 10 dm/s or more: TRACKING with that speed (R52, R177). -/
def State.moving (s : State) : Bool := decide (s.tracker.state = .tracking) && decide (10 ≤ s.tracker.speed)

/-- A record that holds the intake shut: ARMED or ENGULFED (R71). -/
def PlumeRecord.holds (r : PlumeRecord) : Bool :=
  match r.phase with
  | .approaching => false
  | .armed => true
  | .engulfed => true

/-- The number of records that are ARMED or ENGULFED (R84, R153). -/
def State.plumeCount (s : State) : Nat := (s.timeline.records.filter (·.holds)).length

/-! ## Message codes (R174) -/

/-- Kind codes (R174). -/
def kindCode : Kind → Nat
  | .pm => 0
  | .no2 => 1
  | .co2 => 2
  | .rh => 3
  | .temp => 4
  | .dp => 5
  | .feedback => 6

/-- Location codes (R174). -/
def locationCode : Location → Nat
  | .outside => 0
  | .duct => 1
  | .cabin => 2

/-- Quality codes (R174). -/
def qualityCode : Quality → Nat
  | .warming => 0
  | .good => 1
  | .suspect => 2
  | .fault => 3
  | .absent => 4

/-- Quality from its code; none where it is none of the five (R32). -/
def qualityOfCode : Nat → Option Quality
  | 0 => some .warming
  | 1 => some .good
  | 2 => some .suspect
  | 3 => some .fault
  | 4 => some .absent
  | _ => none

/-- Role codes of STATUS (R174). -/
def roleCode : Role → Nat
  | .forward => 1
  | .inlet => 2
  | .cabin => 3

/-- Role from its STATUS code (R26). -/
def roleOfCode : Nat → Option Role
  | 1 => some .forward
  | 2 => some .inlet
  | 3 => some .cabin
  | _ => none

/-- Station state codes of STATUS (R174). -/
def stationCode : Station → Nat
  | .loading => 0
  | .joining => 1
  | .running => 2
  | .conflict => 3

/-- Announced state codes (R174). -/
def announcedCode : Announced → Nat
  | .joining => 1
  | .running => 2
  | .conflict => 3

/-- Announced state from its code; LOADING is unusable (R26). -/
def announcedOfCode : Nat → Option Announced
  | 1 => some .joining
  | 2 => some .running
  | 3 => some .conflict
  | _ => none

/-- Regime from its STATUS code; a value outside the six gives none (R26). -/
def regimeOfCode : Nat → Option Regime
  | 0 => some .auto
  | 1 => some .recirc
  | 2 => some .flush
  | 3 => some .scrub
  | 4 => some .safe
  | 5 => some .idle
  | _ => none

/-- Demand regime codes (R174). -/
def demandRegimeCode : DemandRegime → Nat
  | .recirc => 1
  | .flush => 2
  | .scrub => 3

/-- A species mask as PM bit 0, NO2 bit 1 (R179). -/
def speciesCode (m : Species) : Nat := bitsValue [m.pm, m.no2]

/-- The phases of a SIGHT (R67, R174). -/
inductive SightPhase | opened | update | closed | forcedClose
deriving DecidableEq, Repr

/-- Phase codes (R174). -/
def sightPhaseCode : SightPhase → Nat
  | .opened => 1
  | .update => 2
  | .closed => 3
  | .forcedClose => 4

/-- Phase from its code; another value makes the frame unusable (R73). -/
def sightPhaseOfCode : Nat → Option SightPhase
  | 1 => some .opened
  | 2 => some .update
  | 3 => some .closed
  | 4 => some .forcedClose
  | _ => none

/-- A phase that closes a sighting. -/
def SightPhase.closes : SightPhase → Bool
  | .opened => false
  | .update => false
  | .closed => true
  | .forcedClose => true

/-- An optional burden as a two-byte field, 0xFFFF for none (R174). -/
def burdenCode : Option Nat → Nat
  | none => 0xFFFF
  | some b => b

/-- A received burden field: 0xFFFF is absent, 4001–65534 is taken as 4000 (R26, R32). -/
def burdenOfWord (w : Nat) : Option Nat := if w = 0xFFFF then none else some (min w 4000)

/-! ## Messages this station forms (R174, R175) -/

/-! Bits of a sent message that R174 assigns to no field are sent as 0: the model's choice (log 38). -/

/-- SAFE: reasons and hold in seconds (R106, R174). Byte 0 bits 2–7 are 0 (log 38). -/
def safeFrame (s : State) (force rule : Bool) (hold : Nat) : Frame :=
  ownFrame s 1 0 (byte1 (bitsValue [force, rule]) ++ byte1 hold)

/-- HUSH: factor and duration in 100 ms units (R170, R174). -/
def hushFrame (s : State) (factor duration : Nat) : Frame := ownFrame s 2 0 (byte1 factor ++ byte1 duration)

/-- SIGHT content from the detector's fields as they stand (R67, R174). Byte 0 bits 3 and 6 are 0 (log 38). -/
def sightFrame (s : State) (phase : SightPhase) : Frame :=
  let d := s.detector
  let head := sightPhaseCode phase + 16 * bitsValue [d.species.pm, d.species.no2, false, d.travelLost]
  let length := if phase.closes then d.dsf else 0
  ownFrame s 3 (d.sequence % 16) (byte1 head ++ byte1 d.sequence ++ byte2 d.peak ++ byte2 d.dsf ++ byte2 length)

/-- TRAVEL content (R43, R174). Byte 4 bits 3–7 are 0 (log 38). -/
def travelFrame (s : State) : Frame :=
  let flags := bitsValue [s.inputs.ign.level, s.inputs.rev.level, s.source.standstill]
  ownFrame s 4 0 (byte2 s.source.count ++ byte2 s.source.speed ++ byte1 flags ++ byte1 s.source.sequence)

/-- DEMAND with a regime, a level and a hold (R105, R174). -/
def demandFrame (s : State) (source : Fin 16) (r : DemandRegime) (level hold : Nat) : Frame :=
  ownFrame s 5 source.val (byte1 (demandRegimeCode r) ++ byte1 level ++ byte1 hold)

/-- DEMAND with level 0: its regime and hold bytes are free values (R105, log 15). -/
def withdrawFrame (s : State) (source : Fin 16) : Frame :=
  ownFrame s 5 source.val [Config.withdrawRegime source.val, 0#8, Config.withdrawHold source.val]

/-- The effective interval announced in STATUS: status interval × interval factor, capped at 255; 50 in CONFLICT (R167). -/
def State.effectiveInterval (s : State) : Nat :=
  if s.startup.station = .conflict then 50 else min 255 (s.cfg.statusInterval * s.stretch.interval.factor)

/-- STATUS content as formed now (R174). Byte 0 bits 2–3 and 6–7 are 0 (log 38). -/
def statusFrame (s : State) : Frame :=
  ownFrame s 6 0
    (byte1 (roleCode s.startup.role + 16 * stationCode s.startup.station) ++ byte1 (regimeCode s.activeRegime).val ++
      byte2 s.ramps.damper.output ++ byte2 (burdenCode s.combinedBurden) ++ byte1 s.summary ++
      byte1 s.effectiveInterval)

/-- READING of a published slot, formed from its record as it stands (R15, R174). -/
def readingFrame (s : State) (i : Fin 16) : Frame :=
  let c := s.cfg.slots[i]
  let r := s.sequencer.records[i]
  ownFrame s 7 i.val
    (byte1 (kindCode c.kind + 8 * locationCode c.location + 32 * qualityCode r.quality) ++ byte2 r.value ++
      byte2 (burdenCode (s.slotBurden i)))

/-! ## Received frames -/

/-- The length of a kind's payload, for the kinds whose length the dispatcher checks (R174, R175). -/
def payloadLength : Nat → Nat
  | 1 => 2
  | 2 => 2
  | 3 => 8
  | 4 => 6
  | 5 => 3
  | 6 => 8
  | 7 => 5
  | 8 => 2
  | _ => 0

/-- The head of the receive queue, when it is a frame of this kind long enough for it and the dispatcher works: it
delivers nothing in LOADING (R172, R175, R180). -/
def State.headOf (s : State) (kind : Nat) : Option Frame :=
  match s.receive.queue with
  | [] => none
  | f :: _ =>
    if s.startup.station ≠ .loading ∧ f.kind = kind ∧ payloadLength kind ≤ f.data.length then some f else none

/-- The head leaves the receive queue (R172). -/
def State.dequeue (s : State) : State := { s with receive := { s.receive with queue := s.receive.queue.drop 1 } }

end Sys2Proof.Machine
end

