-- ==== Sys2Proof/Machine/Account.lean ====
section
/-! DEFINITION. The accounting unit (chapter 9), and the meaning of ACCOUNTING_TIMER_EXPIRY. -/

namespace Sys2Proof.Machine

open Sys2Proof

/-- The accounting period (R142). -/
def accountingTime : Nat := 1000

/-- The kind an exposure group counts (R143). -/
def Exposure.kind : Exposure → Kind
  | .pm => .pm
  | .no2 => .no2
  | .co2 => .co2

/-- The bin of a burden (R143). -/
def burdenBin (b : Nat) : Fin 6 :=
  if b < 250 then 0 else if b < 500 then 1 else if b < 1000 then 2 else if b < 2000 then 3 else 4

/-- The burden of a group's exposure slot, or unknown (R143). -/
def State.exposureBurden (s : State) (g : Exposure) : Option Nat := (s.firstSlot g.kind .cabin).bind s.slotBurden

/-- One second of an exposure group: a bin, and the dose when the burden is known (R143). -/
def State.exposureSecond (s : State) (g : Exposure) : State :=
  match s.exposureBurden g with
  | none => s.count (.bin g 5)
  | some b => (s.count (.bin g (burdenBin b))).bump (.dose g) b

/-- One second of a CABIN: the three exposure groups and the door-open second (R143, R144). -/
def State.cabinSecond (s : State) : State :=
  let t := ((s.exposureSecond .pm).exposureSecond .no2).exposureSecond .co2
  if s.anyDoorOpen then t.count .doorOpenSeconds else t

/-- The fresh fraction of the active regime (R147). -/
def State.regimeFresh (s : State) : Nat :=
  match s.regime with
  | .auto => s.mix.fresh
  | .recirc => 0
  | .scrub => 0
  | .flush => 1000
  | .safe => 1000
  | .idle => 1000

/-- FILTER_WORN follows the mg count and the filter capacity (R148). -/
def State.evaluateFilter (s : State) : State :=
  s.writeFlag .filterWorn (decide (s.cfg.capacityMg ≤ s.accounting.mgCount))

/-- The filter load fields take values. -/
def State.setFilter (s : State) (carry ng mg : Nat) : State :=
  { s with accounting := { s.accounting with carry := carry, ngAccumulator := ng, mgCount := mg } }

/-- The outside PM value Co, or unknown (R147). -/
def State.outsidePm (s : State) : Option Nat := (s.firstSlot .pm .outside).bind s.slotValue

/-- The filter flow in L/s (R147). -/
def State.filterFlow (s : State) : Nat := s.ramps.blower.output * s.cfg.fullFlow / 1023

/-- The load of one second with its carry, in parts of a nanogram (R147). -/
def State.filterProduct (s : State) (co : Nat) : Nat :=
  let cc := (s.cabinReading .pm).getD 0
  s.filterFlow * (s.regimeFresh * co + (1000 - s.regimeFresh) * cc) * s.cfg.efficiency + s.accounting.carry

/-- One filter load second: the carry, the accumulator and the milligrams, with FILTER_WORN when the mg count changes
(R147, R148). -/
def State.filterSecond (s : State) : State :=
  match s.outsidePm with
  | none => s
  | some co =>
    let product := s.filterProduct co
    let ng := s.accounting.ngAccumulator + product / 1000000
    let mg := min maxCount (s.accounting.mgCount + ng / 1000000)
    let t := s.setFilter (product % 1000000) (ng % 1000000) mg
    if mg = s.accounting.mgCount then t else t.evaluateFilter

/-- One second of an INLET: the active regime's second and the filter load second (R145, R147). -/
def State.inletSecond (s : State) : State := (s.count (.regimeSeconds s.regime)).filterSecond

/-- ACCOUNTING_TIMER_EXPIRY: the work of one second by role, and the timer restarts (R142). -/
def execAccountingTimerExpiry (s : State) : Host.Outcome State Fault Refusal :=
  if s.accounting.timer.isSome then
    let t := { s with accounting := { s.accounting with timer := some accountingTime } }
    match s.startup.role with
    | .cabin => finish t.cabinSecond
    | .inlet => finish t.inletSecond
    | .forward => finish t
  else finish s

end Sys2Proof.Machine
end

