-- ==== Sys2Proof/Machine/Ramp.lean ====
section
/-! DEFINITION. The ramp unit (chapter 8): taking targets, stepping, the safe position, the closing time and the stall
check, and the meanings of INTERVAL_TIMER_EXPIRY and SETTLE_TIMER_EXPIRY. -/

namespace Sys2Proof.Machine

open Sys2Proof

/-- The distance between two codes. -/
def distance (a b : Nat) : Nat := (a - b) + (b - a)

/-- The time the damper must stand before it is settled: 2000 ms (R135). -/
def settleTime : Nat := 2000

/-- A channel by name. -/
def RampUnit.channel (u : RampUnit) : RampName → Channel
  | .damper => u.damper
  | .blower => u.blower

/-- The configuration of a channel. -/
def rampCfg (c : Cfg) : RampName → RampCfg
  | .damper => c.damper
  | .blower => c.blower

/-! ## One channel -/

/-- A move starts, or is retargeted: the new target, with P0 and Lmove from the present output (R128, R131). -/
def Channel.aim (c : Channel) (target : Nat) : Channel :=
  { c with moving := true, target := target, origin := c.output, length := distance c.output target }

/-- The channel stands at its target: IDLE, its interval timer stopped. -/
def Channel.rest (c : Channel) : Channel := { c with moving := false, timer := none }

/-- A target handed to a channel is taken by its mode and state (R128, R131). -/
def Channel.take (cfg : RampCfg) (c : Channel) (target : Nat) : Channel :=
  match cfg.mode with
  | .off => { c.rest with output := target, target := target }
  | .linear | .eased =>
    if target = c.output then { c.rest with target := target }
    else if c.moving then c.aim target
    else { c.aim target with timer := some cfg.intervalMs }

/-- The safe jump: the output and the target become the code at once and the channel is IDLE (R132). -/
def Channel.jump (c : Channel) (code : Nat) : Channel := { c.rest with output := code, target := code }

/-- The multiplier of an eased phase (R130). -/
def easeMultiplier : Nat → Nat
  | 0 => 1
  | 1 => 2
  | 2 => 3
  | 3 => 4
  | 4 => 4
  | 5 => 3
  | 6 => 2
  | _ => 1

/-- The phase of an eased move, from the distance already covered (R130). -/
def Channel.phase (c : Channel) : Nat := min 7 (8 * distance c.output c.origin / c.length)

/-- The codes one step moves, before the remaining distance bounds it (R129, R130). OFF never steps (log 27). -/
def Channel.stepSize (cfg : RampCfg) (c : Channel) : Nat :=
  match cfg.mode with
  | .off => distance c.output c.target
  | .linear => cfg.step
  | .eased => max 1 (cfg.step * easeMultiplier c.phase / 4)

/-- The output `n` codes nearer to the target, and not beyond it (R129). -/
def Channel.toward (c : Channel) (n : Nat) : Nat :=
  if c.output ≤ c.target then min c.target (c.output + n) else max c.target (c.output - n)

/-- One step of a MOVING channel (R129, R130). -/
def Channel.step (cfg : RampCfg) (c : Channel) : Channel :=
  let moved := { c with output := c.toward (c.stepSize cfg) }
  if moved.output = moved.target then moved.rest else { moved with timer := some cfg.intervalMs }

/-! ## The unit -/

/-- The settle time starts afresh: the channel is not settled until it has run (R135, log 21). -/
def State.startSettling (s : State) : State :=
  { s with ramps := { s.ramps with settle := some settleTime, settled := false } }

/-- The damper has become MOVING: the settle timer stops, the channel ceases to be settled and STALL is cleared (R135, R136). -/
def State.stopSettling (s : State) : State :=
  ({ s with ramps := { s.ramps with settle := none, settled := false } }).clearFlag .stall

/-- What a change of the damper channel from `c` to `d` hands on: the travel of its output (R134), and the settle timer
and STALL as it becomes MOVING, becomes IDLE, or changes its output in IDLE (R135, R136). -/
def State.damperChanged (s : State) (c d : Channel) : State :=
  let t := if c.output = d.output then s else s.bump .damperTravel (distance c.output d.output)
  if d.moving then (if c.moving then t else t.stopSettling)
  else if c.moving then t.startSettling
  else if c.output = d.output then t
  else t.startSettling.clearFlag .stall

/-- A channel takes a new state, and the damper hands on what its change means. -/
def State.putChannel (s : State) (n : RampName) (d : Channel) : State :=
  match n with
  | .damper => ({ s with ramps := { s.ramps with damper := d } }).damperChanged s.ramps.damper d
  | .blower => { s with ramps := { s.ramps with blower := d } }

/-- A target handed to a channel (R128). A FORWARD or CABIN takes none (R137). -/
def State.takeTarget (s : State) (n : RampName) (target : Nat) : State :=
  if s.startup.role = .inlet then s.putChannel n ((s.ramps.channel n).take (rampCfg s.cfg n) target) else s

/-- Both targets handed as ordinary targets. -/
def State.takeTargets (s : State) (damper blower : Nat) : State :=
  (s.takeTarget .damper damper).takeTarget .blower blower

/-- The safe position applied: both safe codes, with a jump when safe jump is set (R132). -/
def State.applySafePosition (s : State) : State :=
  let d := s.cfg.mix.safeDamper
  let b := s.cfg.mix.safeBlower
  if s.startup.role ≠ .inlet then s
  else if s.cfg.safeJump then
    let t := s.putChannel .damper (s.ramps.damper.jump d)
    t.putChannel .blower (t.ramps.blower.jump b)
  else s.takeTargets d b

/-- The RECIRC code: the last code of the breakpoint table (R92). -/
def recircCode (c : Cfg) : Nat := c.mix.table.b4.p

/-- The fresh code: the first code of the breakpoint table (R92). -/
def freshCode (c : Cfg) : Nat := c.mix.table.b0.p

/-- Division rounded up (00, Arithmetic). -/
def ceilDiv (a b : Nat) : Nat := (a + b - 1) / b

/-- The closing time of the damper in ms (R133). -/
def State.closingTime (s : State) : Nat :=
  let d := distance s.ramps.damper.output (recircCode s.cfg)
  match s.cfg.damper.mode with
  | .linear => ceilDiv d s.cfg.damper.step * s.cfg.damper.intervalMs
  | .eased => ceilDiv d (max 1 (s.cfg.damper.step / 4)) * s.cfg.damper.intervalMs
  | .off => 0

/-- The stall check of a settled, IDLE damper: a GOOD feedback slot decides STALL (R135, R136). -/
def State.stallCheck (s : State) : State :=
  if s.startup.role = .inlet ∧ s.ramps.settled = true ∧ s.ramps.damper.moving = false then
    match s.cfg.feedbackSlot with
    | none => s
    | some i =>
      let r := s.sequencer.records[i]
      if r.quality = .good then
        s.writeFlag .stall (decide (s.cfg.stallTolerance < distance r.value s.ramps.damper.output))
      else s
  else s

/-- INTERVAL_TIMER_EXPIRY: a MOVING channel makes one step (R129, R130). -/
def execIntervalTimerExpiry (n : RampName) (s : State) : Host.Outcome State Fault Refusal :=
  let c := s.ramps.channel n
  if c.moving = true ∧ c.timer.isSome then finish (s.putChannel n (c.step (rampCfg s.cfg n))) else finish s

/-- SETTLE_TIMER_EXPIRY: the damper becomes settled and the check is made at once (R135). -/
def execSettleTimerExpiry (s : State) : Host.Outcome State Fault Refusal :=
  if s.ramps.settle.isSome then
    finish ({ s with ramps := { s.ramps with settle := none, settled := true } }).stallCheck
  else finish s

end Sys2Proof.Machine
end

