-- ==== Sys2Proof/Machine/Mix.lean ====
section
/-! DEFINITION. The mix law unit (chapter 7): the fresh fraction, the damper code, the blower law and the computation. -/

namespace Sys2Proof.Machine

open Sys2Proof

/-- The damper code of a recirculation fraction on one segment (R120). -/
def segmentCode (a b : Breakpoint) (r : Nat) : Nat := a.p + (r - a.r) * (b.p - a.p) / (b.r - a.r)

/-- pos(r): the damper code of a recirculation fraction; at an interior breakpoint the lower segment (R120). -/
def damperCode (t : BreakTable) (r : Nat) : Nat :=
  if r ≤ t.b1.r then segmentCode t.b0 t.b1 r
  else if r ≤ t.b2.r then segmentCode t.b1 t.b2 r
  else if r ≤ t.b3.r then segmentCode t.b2 t.b3 r
  else segmentCode t.b3 t.b4 r

/-- The fresh floor F_co2 from the cabin CO2, or its fallback (R116, R117). -/
def freshFloor (m : MixCfg) : Option Nat → Nat
  | none => m.fallbackFloor
  | some c =>
    if c ≤ m.co2Low then 0
    else if m.co2High ≤ c then 1000
    else (c - m.co2Low) * 1000 / (m.co2High - m.co2Low)

/-- The recirculation wish R_out from the outside burden and the cabin burden used, or its fallback (R115, R118). -/
def recircWish (m : MixCfg) (bo : Option Nat) (bc : Nat) : Nat :=
  match bo with
  | none => m.fallbackWish
  | some o => if o ≤ bc then 0 else min 1000 ((o - bc) * 1000 / m.band)

/-- The blower target from the cabin burden used (R121). -/
def blowerCode (c : Cfg) (bc : Nat) : Nat :=
  max c.mix.blowerMin (min c.mix.blowerMax (c.mix.blowerBase + (bc - c.targetBurden) * c.mix.blowerGain / 1000))

/-- The cabin burden used: Bc, or the cabin target burden in its place (R116). -/
def State.burdenUsed (s : State) : Nat := s.cabinBurden.getD s.cfg.targetBurden

/-- The record of a FULL computation from the inputs as they stand (R115–R121). -/
def State.fullComputation (s : State) : MixRecord :=
  let bo := s.combinedBurden
  let co2 := s.cabinReading .co2
  let floor := freshFloor s.cfg.mix co2
  let wish := recircWish s.cfg.mix bo s.burdenUsed
  let fresh := max floor (1000 - wish)
  { kind := .full, bo := bo, bc := s.cabinBurden, co2 := co2, floor := floor, wish := wish, fresh := fresh
    recirc := 1000 - fresh, damper := some (damperCode s.cfg.mix.table (1000 - fresh))
    blower := some (blowerCode s.cfg s.burdenUsed) }

/-- The record of a BLOWER computation: kind, Bc and the blower target; the rest as the last FULL left it (R113). -/
def State.blowerComputation (s : State) : MixRecord :=
  { s.mix with kind := .blower, bc := s.cabinBurden, blower := some (blowerCode s.cfg s.burdenUsed) }

/-- A computed target is handed on when derived afresh, or when it differs from the record's (R123). -/
def State.handComputed (s : State) (n : RampName) (afresh : Bool) (old new : Option Nat) : State :=
  match new with
  | none => s
  | some target => if afresh || decide (old ≠ some target) then s.takeTarget n target else s

/-- A computation at an INLET in RUNNING, by the active regime (R122): FULL in AUTO, BLOWER in RECIRC, none in the
others. The record takes the result, and the targets are handed on (R123). -/
def State.computeMix (s : State) (afresh : Bool) : State :=
  if s.startup.role = .inlet ∧ s.startup.station = .running then
    match s.regime with
    | .auto =>
      let m := s.fullComputation
      (({ s with mix := m }).handComputed .damper afresh s.mix.damper m.damper).handComputed .blower afresh
        s.mix.blower m.blower
    | .recirc =>
      let m := s.blowerComputation
      ({ s with mix := m }).handComputed .blower afresh s.mix.blower m.blower
    | .flush | .scrub | .safe | .idle => s
  else s

/-- A cabin notice or an own sweep end: an ordinary computation (R122, R123). -/
def State.mixNotice (s : State) : State := s.computeMix false

end Sys2Proof.Machine
end

