-- ==== Sys2Proof/Machine/Demands.lean ====
section
/-! DEFINITION. The demand list, the safe-source set and the active regime of an INLET (sections 6.1 to 6.4, 6.7), and the
meanings of DEMAND_TAKEN, DEMAND_HOLD_EXPIRY, SAFE_TAKEN and SAFE_HOLD_EXPIRY. -/

namespace Sys2Proof.Machine

open Sys2Proof

/-! ## The list (R93, R94) -/

/-- The most entries a list holds (R93). -/
def listCapacity : Nat := 16

/-- The largest value the next stamp can stand at (R94). -/
def lastStamp : Nat := 65535

/-- An entry's key is (station, source) (R93). -/
def DemandEntry.hasKey (e : DemandEntry) (n : Fin 8) (source : Fin 16) : Bool :=
  decide (e.station = n ∧ e.source = source)

/-- A message entry has a hold remaining; a local entry has none (R93). -/
def DemandEntry.isMessage (e : DemandEntry) : Bool := e.hold.isSome

/-- The list holds a key. -/
def DemandList.holds (l : DemandList) (n : Fin 8) (source : Fin 16) : Bool := l.entries.any (·.hasKey n source)

/-- The entry of a key. -/
def DemandList.find (l : DemandList) (n : Fin 8) (source : Fin 16) : Option DemandEntry :=
  l.entries.find? (·.hasKey n source)

/-- The list without a key's entry. -/
def DemandList.remove (l : DemandList) (n : Fin 8) (source : Fin 16) : DemandList :=
  { l with entries := l.entries.filter fun e => !e.hasKey n source }

/-- An entry placed after every entry of equal or higher level and before every entry of lower level (R94). -/
def placeEntry (e : DemandEntry) : List DemandEntry → List DemandEntry
  | [] => [e]
  | x :: xs => if e.level ≤ x.level then x :: placeEntry e xs else e :: x :: xs

/-- The held entries renumbered from `n` in list order (R94). -/
def renumberFrom (n : Nat) : List DemandEntry → List DemandEntry
  | [] => []
  | x :: xs => { x with stamp := n } :: renumberFrom (n + 1) xs

/-- When the next stamp stands at 65535 the held entries are renumbered first (R94). -/
def DemandList.renumbered (l : DemandList) : DemandList :=
  if l.nextStamp = lastStamp then { entries := renumberFrom 0 l.entries, nextStamp := l.entries.length } else l

/-- An insertion: the entry takes the next stamp and its place (R94). -/
def DemandList.insert (l : DemandList) (e : DemandEntry) : DemandList :=
  let m := l.renumbered
  { entries := placeEntry { e with stamp := m.nextStamp } m.entries, nextStamp := m.nextStamp + 1 }

/-- Of two message entries, `a` goes before `b` for eviction: a lower level, or the newer stamp at one level (R96). -/
def evictsBefore (a b : DemandEntry) : Bool :=
  decide (a.level < b.level ∨ (a.level = b.level ∧ b.stamp < a.stamp))

/-- The message entry of the lowest level held among message entries, the newest of that level (R96, R99). -/
def evictionCandidate : List DemandEntry → Option DemandEntry
  | [] => none
  | x :: xs =>
    match evictionCandidate xs with
    | none => if x.isMessage then some x else none
    | some y => if x.isMessage && evictsBefore x y then some x else some y

/-! ## The active regime (R103, R104) -/

/-- The safe-source set holds a member (R101). -/
def SafeSet.nonempty (q : SafeSet) : Bool := q.force || q.conflict || q.rule || q.remote.toList.any (·.isSome)

/-- The selection of R103. -/
def State.selectRegime (s : State) : Regime :=
  if s.safe.nonempty || decide (s.startup.station = .joining) then .safe
  else if !s.tracker.ignition then .idle
  else
    match s.demands.entries with
    | [] => .auto
    | e :: _ => e.regime.regime

/-- The targets of the active regime handed to the channels (R92, R104). -/
def State.handTargets (s : State) : State :=
  match s.regime with
  | .auto => s.computeMix true
  | .recirc => (s.takeTarget .damper (recircCode s.cfg)).computeMix true
  | .flush => s.takeTargets (freshCode s.cfg) s.cfg.mix.flushBlower
  | .scrub => s.takeTargets (recircCode s.cfg) s.cfg.mix.scrubBlower
  | .safe => s.takeTargets s.cfg.mix.safeDamper s.cfg.mix.safeBlower
  | .idle => s.takeTargets s.ramps.damper.output 0

/-- The demand list works at an INLET outside LOADING (section 6.2). -/
def State.listWorks (s : State) : Bool := decide (s.startup.role = .inlet) && decide (s.startup.station ≠ .loading)

/-- The regime selected again: a different one becomes active and is handed on; SAFE is the safe position (R103, R104). -/
def State.reselect (s : State) : State :=
  let r := s.selectRegime
  if s.listWorks = false ∨ r = s.regime then s
  else if r = .safe then ({ s with regime := r }).applySafePosition
  else ({ s with regime := r }).handTargets

/-- The regime selected again and its targets derived afresh, whether or not it differs (R102, R104, R111). In JOINING
they are the safe codes again, handed as ordinary targets (R139, log 20). -/
def State.rederive (s : State) : State :=
  if s.listWorks = false then s else ({ s with regime := s.selectRegime }).handTargets

/-! ## The safe-source set (R101, R102) -/

/-- The set takes a new value; its passage between empty and non-empty is handed on at once (R102). -/
def State.setSafe (s : State) (q : SafeSet) : State :=
  if s.listWorks = false then s
  else
    let t := { s with safe := q }
    match s.safe.nonempty, q.nonempty with
    | false, true => (({ t with regime := .safe }).setFlag .safeActive).applySafePosition
    | true, false => (t.clearFlag .safeActive).rederive
    | _, _ => t

/-- The FORCE member follows the force request (R101). -/
def State.setForceMember (s : State) (b : Bool) : State := s.setSafe { s.safe with force := b }

/-- The RULE member follows the rule safe condition (R101, R156). -/
def State.setRuleMember (s : State) (b : Bool) : State := s.setSafe { s.safe with rule := b }

/-- The CONFLICT member joins (R101, R184). -/
def State.setConflictMember (s : State) : State := s.setSafe { s.safe with conflict := true }

/-- A SAFE·n member added, replaced or removed (R101). -/
def State.setRemoteMember (s : State) (n : Fin 8) (m : Option SafeMember) : State :=
  s.setSafe { s.safe with remote := s.safe.remote.set n m }

/-! ## Entries from messages (R95–R98) -/

/-- A new entry inserted and counted as raised (R94). -/
def State.insertRaised (s : State) (e : DemandEntry) : State :=
  ({ s with demands := s.demands.insert e }).count .raised

/-- An entry removed to make room and counted as evicted, and the new entry inserted and counted as raised (R96, R99). -/
def State.insertFor (s : State) (v e : DemandEntry) : State :=
  (({ s with demands := (s.demands.remove v.station v.source).insert e }).count .demandEvicted).count .raised

/-- A message entry refused: counted, and DEMAND_OVERFLOW set (R96). -/
def State.refuseDemand (s : State) : State := (s.count .refused).setFlag .demandOverflow

/-- A raise from a DEMAND message (R96). -/
def State.raiseMessage (s : State) (e : DemandEntry) : State :=
  if s.demands.entries.length < listCapacity then s.insertRaised e
  else
    match evictionCandidate s.demands.entries with
    | none => s.refuseDemand
    | some v => if v.level < e.level then s.insertFor v e else s.refuseDemand

/-- The held entry takes a new hold and regime and keeps its place and stamp (R97). -/
def DemandList.refreshInPlace (l : DemandList) (e : DemandEntry) : DemandList :=
  { l with entries := l.entries.map fun x =>
      if x.hasKey e.station e.source then { x with hold := e.hold, regime := e.regime } else x }

/-- A refresh from a DEMAND message for the held entry `old` (R97). -/
def State.refreshMessage (s : State) (old e : DemandEntry) : State :=
  if e.level = old.level then ({ s with demands := s.demands.refreshInPlace e }).count .refreshed
  else ({ s with demands := (s.demands.remove e.station e.source).insert e }).count .refreshed

/-- A DEMAND of this source, level, regime and hold fails the checks of R95. -/
def demandDiscarded (source : Fin 16) (level regime hold : Nat) (silent : Bool) : Bool :=
  decide (source = 5 ∨ source = 6 ∨ source = 7) || decide (7 < level) ||
    (decide (1 ≤ level) && ((demandRegimeOfCode regime).isNone || decide (hold = 0))) || silent

/-- A DEMAND taken by the list, before the regime is selected again (R95). -/
def State.takeDemandEntry (s : State) (f : Frame) : State :=
  let n := f.station
  let source := f.index
  let level := f.byte 1
  let hold := f.byte 2
  if demandDiscarded source level (f.byte 0) hold s.peers[n].presence.isSilent then s.count .discarded
  else if level = 0 then { s with demands := s.demands.remove n source }
  else
    match demandRegimeOfCode (f.byte 0) with
    | none => s
    | some r =>
      let e : DemandEntry :=
        { station := n, source := source, regime := r, level := level, hold := some (seconds hold), stamp := 0 }
      match s.demands.find n source with
      | none => s.raiseMessage e
      | some old => s.refreshMessage old e

/-- DEMAND_TAKEN: the head of the receive queue is delivered to the demand list; on a FORWARD or CABIN it is discarded
without a count (R95, R172). -/
def execDemandTaken (s : State) : Host.Outcome State Fault Refusal :=
  match s.headOf 5 with
  | none => finish s
  | some f => if s.startup.role = .inlet then finish (s.dequeue.takeDemandEntry f).reselect else finish s.dequeue

/-- DEMAND_HOLD_EXPIRY: a message entry whose hold runs out is removed and counted as expired (R98). -/
def execDemandHoldExpiry (n : Fin 8) (source : Fin 16) (s : State) : Host.Outcome State Fault Refusal :=
  match s.demands.find n source with
  | none => finish s
  | some e =>
    if e.isMessage then finish (({ s with demands := s.demands.remove n source }).count .expired).reselect
    else finish s

/-! ## SAFE messages (R101) -/

/-- A SAFE taken by the safe-source set (R101). -/
def State.takeSafe (s : State) (f : Frame) : State :=
  let n := f.station
  if s.peers[n].presence.isSilent then s.count .discarded
  else if f.byte 1 = 0 then s.setRemoteMember n none
  else
    s.setRemoteMember n
      (some { force := (f.byte 0).testBit 0, rule := (f.byte 0).testBit 1, holdMs := seconds (f.byte 1) })

/-- SAFE_TAKEN: the head of the receive queue is delivered to the safe-source set (R101, R172). -/
def execSafeTaken (s : State) : Host.Outcome State Fault Refusal :=
  match s.headOf 1 with
  | none => finish s
  | some f => if s.startup.role = .inlet then finish (s.dequeue.takeSafe f) else finish s.dequeue

/-- SAFE_HOLD_EXPIRY: a SAFE·n member whose hold runs out is removed (R101). -/
def execSafeHoldExpiry (n : Fin 8) (s : State) : Host.Outcome State Fault Refusal :=
  if s.safe.remote[n].isSome then finish (s.setRemoteMember n none) else finish s

/-! ## Local entries and the purge (R99, R100) -/

/-- A local entry of this station (R99). -/
def localEntry (s : State) (source : Fin 16) (r : DemandRegime) (level : Nat) : DemandEntry :=
  { station := s.startup.own, source := source, regime := r, level := level, hold := none, stamp := 0 }

/-- The insertion of a local entry: on a full list the message entry of the lowest level goes, the newest of it (R99).
The list never holds a key twice (R93), and with no message entry to remove nothing is inserted (log 27). -/
def State.insertLocal (s : State) (source : Fin 16) (r : DemandRegime) (level : Nat) : State :=
  let e := localEntry s source r level
  if s.listWorks = false ∨ s.demands.holds s.startup.own source = true then s
  else if s.demands.entries.length < listCapacity then s.insertRaised e
  else
    match evictionCandidate s.demands.entries with
    | none => s
    | some v => s.insertFor v e

/-- A local entry raised as its condition begins (R99). -/
def State.raiseLocal (s : State) (source : Fin 16) (r : DemandRegime) (level : Nat) : State :=
  (s.insertLocal source r level).reselect

/-- A local entry withdrawn as its condition ends, without a count (R99). -/
def State.withdrawLocal (s : State) (source : Fin 16) : State :=
  if s.listWorks = false then s
  else ({ s with demands := s.demands.remove s.startup.own source }).reselect

/-- The number of entries of a station. -/
def DemandList.countOf (l : DemandList) (n : Fin 8) : Nat := (l.entries.filter fun e => decide (e.station = n)).length

/-- The list without the entries of a station. -/
def DemandList.without (l : DemandList) (n : Fin 8) : DemandList :=
  { l with entries := l.entries.filter fun e => decide (e.station ≠ n) }

/-- The purge of a peer: its entries removed and counted, and its safe-source member removed without a count (R100). -/
def State.purgePeer (s : State) (n : Fin 8) : State :=
  if s.listWorks = false then s
  else
    let t := ({ s with demands := s.demands.without n }).bump .purged (s.demands.countOf n)
    t.reselect.setRemoteMember n none

/-! ## Local conditions and RESET DEMANDS (R107, R111) -/

/-- A driver's switch, or another condition with a demand source, raised or withdrawn as a local entry. -/
def State.setLocal (s : State) (source : Fin 16) (r : DemandRegime) (level : Nat) (holds : Bool) : State :=
  if holds then s.raiseLocal source r level else s.withdrawLocal source

/-- The demand source number of rule `n`: 8 + n (R156). -/
def ruleSource (n : Fin 8) : Fin 16 := ⟨8 + n.val, by omega⟩

/-- The local entry of rule `n`, when it is FIRING with a DEMAND action (R111, R156). -/
def State.insertRule (s : State) (n : Fin 8) : State :=
  match s.cfg.rules[n].action with
  | .demand r level => if s.rules[n].firing then s.insertLocal (ruleSource n) r level else s
  | .none => s
  | .safe => s

/-- Each local condition that holds raises its entry again, in the order of R111. -/
def State.insertLocals (s : State) : State :=
  let a := if s.timeline.hold = .off then s else s.insertLocal 0 .recirc s.cfg.timeline.plumeLevel
  let b := if s.recircSwitch then a.insertLocal 2 .recirc s.cfg.driverLevel else a
  let c := if s.flushSwitch then b.insertLocal 3 .flush s.cfg.driverLevel else b
  (List.finRange 8).foldl State.insertRule c

/-- The set without its SAFE·n members (R111). -/
def SafeSet.localOnly (q : SafeSet) : SafeSet := { q with remote := tabulate fun _ => none }

/-- Every SAFE·n member leaves the set; SAFE_ACTIVE follows the set (R102, R111). -/
def State.dropRemote (s : State) : State :=
  let t := { s with safe := s.safe.localOnly }
  if s.safe.nonempty && !s.safe.localOnly.nonempty then t.clearFlag .safeActive else t

/-- RESET DEMANDS at an INLET: the list emptied and the local entries raised again, the SAFE·n members removed, the
regime selected again and its targets derived afresh (R102, R111). -/
def State.resetDemands (s : State) : State :=
  if s.listWorks = false then s
  else ({ s with demands := resetDemandList }).insertLocals.dropRemote.rederive

end Sys2Proof.Machine
end

