-- ==== Sys2Proof/Machine/Emitters.lean ====
section
/-! DEFINITION. The demand and safe emitters, the door scrub and the cab switches (sections 6.5 and 6.6), and the
meanings of DEMAND_REPEAT_EXPIRY, SAFE_REPEAT_EXPIRY, SCRUB_TIMER_EXPIRY and CHECK_TIMER_EXPIRY. -/

namespace Sys2Proof.Machine

open Sys2Proof

/-- The rule behind a demand source 8–15 (R156). -/
def ruleOfSource (source : Fin 16) : Fin 8 := ⟨source.val - 8, by omega⟩

/-- The regime and level an emitter takes from its condition's configuration (R105); none for a source no emitter has. -/
def emitterDemand (c : Cfg) (source : Fin 16) : Option (DemandRegime × Nat) :=
  if source = 1 then some (.scrub, c.scrubLevel)
  else if source = 2 then some (.recirc, c.driverLevel)
  else if source = 3 then some (.flush, c.driverLevel)
  else if 8 ≤ source then
    match c.rules[ruleOfSource source].action with
    | .demand r level => some (r, level)
    | .none => none
    | .safe => none
  else none

/-- The repeat time: a third of the demand hold, in whole 100 ms (R105). -/
def repeatTime (c : Cfg) : Nat := c.demandHoldS * 1000 / 3 / 100 * 100

/-- The safe emitter's repeat time (R106). -/
def safeRepeatTime : Nat := 1000

/-- An emitter that is HELD with this time left. -/
def emitterHeld (ms : Nat) : Emitter := { held := true, timer := some ms }

/-- A demand emitter takes a state. -/
def State.setEmitter (s : State) (source : Fin 16) (e : Emitter) : State :=
  { s with emitters := { s.emitters with demand := s.emitters.demand.set source e } }

/-- The emitters work on a FORWARD or CABIN station in RUNNING (R105, R106). -/
def State.emittersWork (s : State) : Bool :=
  decide (s.startup.role ≠ .inlet) && decide (s.startup.station = .running)

/-- An emitter's condition begins: it becomes HELD, queues its DEMAND and starts its timer (R105). -/
def State.emitterBegins (s : State) (source : Fin 16) : State :=
  match emitterDemand s.cfg source with
  | none => s
  | some (r, level) =>
    if s.emittersWork = true ∧ s.emitters.demand[source].held = false then
      (s.setEmitter source (emitterHeld (repeatTime s.cfg))).post (.demand source)
        (demandFrame s source r level s.cfg.demandHoldS)
    else s

/-- An emitter's condition ends while it is HELD: it becomes OFF and queues a DEMAND with level 0 (R105). -/
def State.emitterEnds (s : State) (source : Fin 16) : State :=
  if s.emitters.demand[source].held then
    (s.setEmitter source emitterOff).post (.demand source) (withdrawFrame s source)
  else s

/-- DEMAND_REPEAT_EXPIRY: a HELD emitter queues the same DEMAND again and restarts its timer (R105). -/
def execDemandRepeatExpiry (source : Fin 16) (s : State) : Host.Outcome State Fault Refusal :=
  let e := s.emitters.demand[source]
  match emitterDemand s.cfg source with
  | none => finish s
  | some (r, level) =>
    if e.held = true ∧ e.timer.isSome then
      finish ((s.setEmitter source (emitterHeld (repeatTime s.cfg))).post (.demand source)
        (demandFrame s source r level s.cfg.demandHoldS))
    else finish s

/-! ## The safe emitter (R106) -/

/-- The safe emitter takes a state. -/
def State.setSafeEmitter (s : State) (e : Emitter) : State := { s with emitters := { s.emitters with safe := e } }

/-- A reason of the safe emitter began or ended: it becomes HELD with the first and OFF after the last (R106). -/
def State.safeReasonsChanged (s : State) : State :=
  if s.emittersWork = false then s
  else if s.emitters.safe.held then
    if s.forceRequest || s.ruleSafe then s
    else (s.setSafeEmitter emitterOff).post .safe (safeFrame s false false 0)
  else if s.forceRequest || s.ruleSafe then
    (s.setSafeEmitter (emitterHeld safeRepeatTime)).post .safe
      (safeFrame s s.forceRequest s.ruleSafe s.cfg.safeHoldS)
  else s

/-- SAFE_REPEAT_EXPIRY: a HELD safe emitter queues a SAFE with the reasons that hold now and restarts (R106). -/
def execSafeRepeatExpiry (s : State) : Host.Outcome State Fault Refusal :=
  if s.emitters.safe.held = true ∧ s.emitters.safe.timer.isSome then
    finish ((s.setSafeEmitter (emitterHeld safeRepeatTime)).post .safe
      (safeFrame s s.forceRequest s.ruleSafe s.cfg.safeHoldS))
  else finish s

/-! ## Conditions handed to the station's demand and safe logic -/

/-- A change of a condition with a demand source: a local entry on an INLET (R99), an emitter elsewhere (R105). -/
def State.conditionChanged (s : State) (source : Fin 16) (r : DemandRegime) (level : Nat) (holds : Bool) : State :=
  if s.startup.role = .inlet then s.setLocal source r level holds
  else if holds then s.emitterBegins source
  else s.emitterEnds source

/-- A change of the force request: the FORCE member on an INLET (R101), a reason of the safe emitter elsewhere (R106). -/
def State.forceChanged (s : State) : State :=
  if s.startup.role = .inlet then s.setForceMember s.forceRequest else s.safeReasonsChanged

/-- A change of the rule safe condition (R101, R106, R156). -/
def State.ruleSafeChanged (s : State) : State :=
  if s.startup.role = .inlet then s.setRuleMember s.ruleSafe else s.safeReasonsChanged

/-- Whether the condition of a demand emitter holds (R105, R107, R108, R156). -/
def State.emitterCondition (s : State) (source : Fin 16) : Bool :=
  if source = 1 then s.scrub.active
  else if source = 2 then s.recircSwitch
  else if source = 3 then s.flushSwitch
  else if 8 ≤ source then
    s.rules[ruleOfSource source].firing && s.cfg.rules[ruleOfSource source].action.isDemand
  else false

/-- An emitter whose condition holds at the entry to RUNNING becomes HELD, as if it had just begun (R105). -/
def State.emitterTakes (s : State) (source : Fin 16) : State :=
  if s.emitterCondition source then s.emitterBegins source else s

/-- Every emitter takes its condition at the entry to RUNNING (R105, R106). -/
def State.emittersTake (s : State) : State := ((List.finRange 16).foldl State.emitterTakes s).safeReasonsChanged

/-! ## The door scrub (R108, R109) -/

/-- The time between two checks of the scrub (R108). -/
def checkTime : Nat := 1000

/-- The scrub starts: the last open door has closed while the station is RUNNING (R108). -/
def State.startScrub (s : State) : State :=
  let t := { s with scrub := { active := true, timer := some (seconds s.cfg.scrubTimeS), check := some checkTime } }
  (t.count .scrubsStarted).emitterBegins 1

/-- The scrub ends: OFF, both timers stopped, the emitter withdraws (R108, R109). -/
def State.endScrub (s : State) : State := ({ s with scrub := scrubOff }).emitterEnds 1

/-- The any door open level has changed, on a CABIN (R108). -/
def State.doorsChanged (s : State) : State :=
  if s.anyDoorOpen then (if s.scrub.active then s.endScrub else s)
  else if s.startup.station = .running then s.startScrub
  else s

/-- SCRUB_TIMER_EXPIRY: the scrub ends (R108). -/
def execScrubTimerExpiry (s : State) : Host.Outcome State Fault Refusal :=
  if s.scrub.active = true ∧ s.scrub.timer.isSome then finish s.endScrub else finish s

/-- The cab is at or below its target: the combined burden is known and not above it (R109). -/
def State.cabClean (s : State) : Bool :=
  match s.combinedBurden with
  | none => false
  | some b => decide (b ≤ s.cfg.targetBurden)

/-- CHECK_TIMER_EXPIRY: a clean cab ends the scrub early; otherwise the check timer restarts (R109). -/
def execCheckTimerExpiry (s : State) : Host.Outcome State Fault Refusal :=
  if s.scrub.active = true ∧ s.scrub.check.isSome then
    if s.cabClean then finish (s.endScrub.count .scrubsEndedEarly)
    else finish { s with scrub := { s.scrub with check := some checkTime } }
  else finish s

end Sys2Proof.Machine
end

