-- ==== Sys2Proof/Machine/Inputs.lean ====
section
/-! DEFINITION. The input unit (section 1.6), and the meanings of PIN_EDGE and DEBOUNCE_EXPIRY. -/

namespace Sys2Proof.Machine

open Sys2Proof

/-- The level on a pin. -/
def Pins.level (p : Pins) : Pin → Bool
  | .input (.din n) => p.din[n]
  | .input .force => p.force
  | .input .ign => p.ign
  | .input .rev => p.rev
  | .sn n => p.sn[n]
  | .rs n => p.rs[n]

/-- A new level on a pin. -/
def Pins.set (p : Pins) (pin : Pin) (b : Bool) : Pins :=
  match pin with
  | .input (.din n) => { p with din := p.din.set n b }
  | .input .force => { p with force := b }
  | .input .ign => { p with ign := b }
  | .input .rev => { p with rev := b }
  | .sn n => { p with sn := p.sn.set n b }
  | .rs n => { p with rs := p.rs.set n b }

/-- A debounced input by name. -/
def InputUnit.get (u : InputUnit) : Input → Debounced
  | .din n => u.din[n]
  | .force => u.force
  | .ign => u.ign
  | .rev => u.rev

/-- A debounced input takes a value. -/
def InputUnit.set (u : InputUnit) (i : Input) (d : Debounced) : InputUnit :=
  match i with
  | .din n => { u with din := u.din.set n d }
  | .force => { u with force := d }
  | .ign => { u with ign := d }
  | .rev => { u with rev := d }

/-- The debounce time of an input: its configuration's, or 50 ms for FORCE, IGN and REV (R18, R21). In LOADING, before
the configuration is known, it is that of the placeholder defaults, 50 ms: the model's choice (log 37). -/
def debounceTime (c : Cfg) : Input → Nat
  | .din n => c.inputs[n].debounceMs
  | .force => 50
  | .ign => 50
  | .rev => 50

/-- An edge to a level: away from the debounced level the timer starts afresh, back to it the timer stops (R19). -/
def Debounced.edge (d : Debounced) (ms : Nat) (level : Bool) : Debounced :=
  if level = d.level then { d with timer := none } else { d with timer := some ms }

/-- PIN_EDGE: a pin takes a new level. A strap pin has no effect until the next reset (R180, log 4); a level the pin
already has is no edge (R19). -/
def execPinEdge (pin : Pin) (level : Bool) (s : State) : Host.Outcome State Fault Refusal :=
  if s.pins.level pin = level then finish s
  else
    let t := { s with pins := s.pins.set pin level }
    match pin with
    | .input i => finish { t with inputs := s.inputs.set i ((s.inputs.get i).edge (debounceTime s.cfg i) level) }
    | .sn _ => finish t
    | .rs _ => finish t

/-- A door opened event of an input: it becomes active with function DOOR on a CABIN (R20, R144). -/
def State.doorOpened (s before : State) : Input → Bool
  | .din n => decide (s.inputFunction n = .door) && s.inputActive n && !before.inputActive n
  | .force => false
  | .ign => false
  | .rev => false

/-- The changes of the function levels and the force request, handed on to their users (R20). In LOADING no user works
(R22, R110). -/
def State.handLevels (s before : State) : State :=
  if s.startup.station = .loading then s
  else
    let a := if s.anyDoorOpen = before.anyDoorOpen then s else s.doorsChanged
    let b :=
      if s.recircSwitch = before.recircSwitch then a
      else a.conditionChanged 2 .recirc s.cfg.driverLevel s.recircSwitch
    let c :=
      if s.flushSwitch = before.flushSwitch then b
      else b.conditionChanged 3 .flush s.cfg.driverLevel s.flushSwitch
    if s.forceRequest = before.forceRequest then c else c.forceChanged

/-- DEBOUNCE_EXPIRY: the debounced level takes the pin's level, and the change is handed on (R19, R20). -/
def execDebounceExpiry (i : Input) (s : State) : Host.Outcome State Fault Refusal :=
  let d := s.inputs.get i
  if d.timer.isSome then
    let t := { s with inputs := s.inputs.set i { level := s.pins.level (.input i), timer := none } }
    let u := if t.doorOpened s i then t.count .doorOpenings else t
    finish (u.handLevels s)
  else finish s

end Sys2Proof.Machine
end

