-- ==== Sys2Proof/Machine/Timeline.lean ====
section
/-! DEFINITION. The plume timeline of an INLET (chapter 5), and the meanings of SIGHT_TAKEN, APPROACH_CAP_EXPIRY,
ENGULF_CAP_EXPIRY and POST_HOLD_EXPIRY. -/

namespace Sys2Proof.Machine

open Sys2Proof

/-- The most records the timeline holds (R71). -/
def timelineCapacity : Nat := 12

/-- The largest distance (R71). -/
def maxDistance : Nat := 65535

/-- The timeline works on an INLET outside LOADING (R90). -/
def State.timelineWorks (s : State) : Bool :=
  decide (s.startup.role = .inlet) && decide (s.startup.station ≠ .loading)

/-! ## Records and their order (R71) -/

/-- A record's key is (origin, sequence) (R71). -/
def PlumeRecord.hasKey (r : PlumeRecord) (origin : Fin 8) (sequence : Nat) : Bool :=
  decide (r.origin = origin ∧ r.sequence = sequence)

/-- A record stands before another: a smaller front distance, or the older at an equal one (R71). -/
def PlumeRecord.before (a b : PlumeRecord) : Bool := decide (a.df < b.df ∨ (a.df = b.df ∧ a.created ≤ b.created))

/-- A record put in its place in the order (R71). -/
def insertRecord (r : PlumeRecord) : List PlumeRecord → List PlumeRecord
  | [] => [r]
  | x :: xs => if r.before x then r :: x :: xs else x :: insertRecord r xs

/-- The records each in the place its front distance gives it (R71). -/
def sortRecords (rs : List PlumeRecord) : List PlumeRecord := rs.foldr insertRecord []

/-- The record of a key. -/
def State.findRecord (s : State) (origin : Fin 8) (sequence : Nat) : Option PlumeRecord :=
  s.timeline.records.find? (·.hasKey origin sequence)

/-- The records take new values. -/
def State.setRecords (s : State) (rs : List PlumeRecord) : State :=
  { s with timeline := { s.timeline with records := rs } }

/-- A record's tail has passed: a length, and a tail distance of 0 (R79). -/
def PlumeRecord.passed (r : PlumeRecord) : Bool := r.length.isSome && decide (r.dt = some 0)

/-- Records whose tail has passed are removed, without a count (R79). -/
def dropPassed (rs : List PlumeRecord) : List PlumeRecord := rs.filter fun r => !r.passed

/-- The front has reached the intake (R78, R83). -/
def PlumeRecord.engulf (r : PlumeRecord) : PlumeRecord := { r with df := 0, phase := .engulfed, engulfMs := some 0 }

/-! ## The PLUME demand (R84) -/

/-- The PLUME state and the post-hold timer take values. -/
def State.setHold (s : State) (h : PlumeHold) (t : Timer) : State :=
  { s with timeline := { s.timeline with hold := h, postHold := t } }

/-- The PLUME entry raised and counted as a plume closure (R84). -/
def State.raisePlume (s : State) : State :=
  (((s.setHold .held none).count .plumeClosures)).raiseLocal 0 .recirc s.cfg.timeline.plumeLevel

/-- The PLUME entry withdrawn; the PLUME state becomes OFF (R84, R86). -/
def State.withdrawPlume (s : State) : State := (s.setHold .off none).withdrawLocal 0

/-- The post-hold starts; with a post-hold of 0 the entry is withdrawn at once (R84). -/
def State.startPostHold (s : State) : State :=
  if s.cfg.timeline.postHoldS = 0 then s.withdrawPlume
  else s.setHold .postHold (some (seconds s.cfg.timeline.postHoldS))

/-- The PLUME state judged at the end of an event; `became`: a record became ARMED or ENGULFED in it, or was created so
(R84). A re-armed POST_HOLD that ends the event with no such record starts its post-hold again (log 22). -/
def State.judgePlume (s : State) (became : Bool) : State :=
  let t :=
    match s.timeline.hold with
    | .off => if became then s.raisePlume else s
    | .postHold => if became then s.setHold .held none else s
    | .held => s
  if t.timeline.hold = .held ∧ t.plumeCount = 0 then t.startPostHold else t

/-! ## Taking a SIGHT (R73–R77) -/

/-- A decoded SIGHT (R73). -/
structure Sight where
  origin : Fin 8
  sequence : Nat
  phase : SightPhase
  species : Species
  travelLost : Bool
  peak : Nat
  dsf : Nat
  length : Nat
deriving DecidableEq, Repr

/-- A set has a member. -/
def Species.nonempty (m : Species) : Bool := m.pm || m.no2

/-- The union of two species masks. -/
def Species.union (a b : Species) : Species := ⟨a.pm || b.pm, a.no2 || b.no2⟩

/-- A SIGHT decoded; none where its phase makes it unusable (R73). -/
def decodeSight (c : Cfg) (f : Frame) : Option Sight :=
  (sightPhaseOfCode (f.byte 0 % 8)).map fun phase =>
    { origin := f.station, sequence := f.byte 1, phase := phase
      species := ⟨(f.byte 0).testBit 4 && c.timeline.mask.pm, (f.byte 0).testBit 5 && c.timeline.mask.no2⟩
      travelLost := (f.byte 0).testBit 7, peak := min 4000 (f.word 2), dsf := f.word 4, length := f.word 6 }

/-- The offset O = pos(own) − pos(origin), when both positions are set (R74). -/
def State.sightOffset (s : State) (origin : Fin 8) : Option Int :=
  match s.cfg.timeline.geometry[s.startup.own], s.cfg.timeline.geometry[origin] with
  | some own, some org => some ((own : Int) - (org : Int))
  | _, _ => none

/-- The tail distance when a close is taken: max(0, O) + tail margin (R75, R76). -/
def closeDt (c : Cfg) (o : Int) : Nat := o.toNat + c.timeline.tailMargin

/-- The peak and mask of a held record with the frame's added (R75). -/
def PlumeRecord.fold (r : PlumeRecord) (m : Sight) : PlumeRecord :=
  { r with peak := max r.peak m.peak, species := Species.union r.species m.species }

/-- A held record refined by an accepted SIGHT (R75). -/
def PlumeRecord.refine (c : Cfg) (r : PlumeRecord) (m : Sight) : PlumeRecord :=
  match m.phase with
  | .opened => r
  | .update => r.fold m
  | .closed | .forcedClose =>
    if r.length.isSome then r.fold m
    else
      { r.fold m with length := some m.length, dt := some (closeDt c r.offset)
                      background := r.background || decide (m.phase = .forcedClose) }

/-- A refining SIGHT that is counted as a duplicate (R75). -/
def PlumeRecord.isDuplicate (r : PlumeRecord) (m : Sight) : Bool :=
  decide (m.phase = .opened) || (m.phase.closes && r.length.isSome)

/-- A SIGHT for a held key: refinement, duplicates counted, passed records removed, PLUME judged (R75, R79, R84). -/
def State.refineSight (s : State) (r : PlumeRecord) (m : Sight) : State :=
  let rs := s.timeline.records.map fun x => if x.hasKey m.origin m.sequence then x.refine s.cfg m else x
  let t := s.setRecords (dropPassed rs)
  (if r.isDuplicate m then t.count .duplicates else t).judgePlume false

/-- The new record of an accepted SIGHT whose key is not held (R76). -/
def State.newRecord (s : State) (m : Sight) (o : Int) : PlumeRecord :=
  let df := o.toNat - m.dsf
  let phase : PlumePhase :=
    if df = 0 then .engulfed
    else if s.tracker.state ≠ .tracking ∨ m.travelLost = true then .armed
    else if df ≤ s.timeline.lead then .armed
    else .approaching
  { origin := m.origin, sequence := m.sequence, species := m.species, peak := m.peak, offset := o, df := df
    length := if m.phase.closes then some m.length else none
    dt := if m.phase.closes then some (closeDt s.cfg o) else none
    background := decide (m.phase = .forcedClose), phase := phase, ageMs := 0
    engulfMs := if df = 0 then some 0 else none, created := s.timeline.nextCreated }

/-- The new record put in place and counted, passed records removed, PLUME judged (R76, R79, R84). -/
def State.createRecord (s : State) (m : Sight) (o : Int) : State :=
  let r := s.newRecord m o
  let tl := { s.timeline with
    records := dropPassed (insertRecord r s.timeline.records), nextCreated := s.timeline.nextCreated + 1 }
  (({ s with timeline := tl }).count .created).judgePlume r.holds

/-- Of two APPROACHING records, `a` goes before `b` for eviction: a lower peak, or the newer at one peak (R77). -/
def dropsBefore (a b : PlumeRecord) : Bool := decide (a.peak < b.peak ∨ (a.peak = b.peak ∧ b.created < a.created))

/-- The APPROACHING record with the lowest peak, the newest of those (R77). -/
def dropCandidate : List PlumeRecord → Option PlumeRecord
  | [] => none
  | x :: xs =>
    match dropCandidate xs with
    | none => if x.phase = .approaching then some x else none
    | some y => if x.phase = .approaching ∧ dropsBefore x y = true then some x else some y

/-- The SIGHT is dropped: counted, and TIMELINE_OVERFLOW set (R77). -/
def State.dropSight (s : State) : State := (s.count .dropped).setFlag .timelineOverflow

/-- A record is to be created: room is made, or the SIGHT is dropped (R77). -/
def State.admitSight (s : State) (m : Sight) (o : Int) : State :=
  if s.timeline.records.length < timelineCapacity then s.createRecord m o
  else
    match dropCandidate s.timeline.records with
    | none => s.dropSight
    | some v =>
      if v.peak < m.peak then
        ((s.setRecords (s.timeline.records.filter fun x => !x.hasKey v.origin v.sequence)).count .evicted).createRecord m o
      else s.dropSight

/-- A decoded SIGHT taken by the timeline (R74). -/
def State.takeSight (s : State) (m : Sight) : State :=
  match s.sightOffset m.origin with
  | none => s.count .ignored
  | some o =>
    if !Species.nonempty m.species then s.count .ignored
    else
      match s.findRecord m.origin m.sequence with
      | some r => s.refineSight r m
      | none => s.admitSight m o

/-- SIGHT_TAKEN: the head of the receive queue is delivered to the timeline. An unusable phase is counted as an unknown
kind (R73); on a FORWARD or CABIN the frame is discarded without a count (R90). -/
def execSightTaken (s : State) : Host.Outcome State Fault Refusal :=
  match s.headOf 3 with
  | none => finish s
  | some f =>
    if s.startup.role = .inlet then
      match decodeSight s.cfg f with
      | none => finish (s.dequeue.count .unknownKinds)
      | some m => finish (s.dequeue.takeSight m)
    else finish s.dequeue

/-! ## Travel (R78–R82) -/

/-- A forward delta applied to a record (R78). -/
def PlumeRecord.advance (d : Nat) (r : PlumeRecord) : PlumeRecord :=
  let r' := { r with dt := r.dt.map (· - d) }
  if r.phase = .engulfed then r' else if r.df - d = 0 then r'.engulf else { r' with df := r.df - d }

/-- A reverse delta applied to a record (R81). -/
def PlumeRecord.backUp (d : Nat) (r : PlumeRecord) : PlumeRecord :=
  let r' := { r with dt := r.dt.map fun t => min maxDistance (t + d) }
  if r.phase = .engulfed then r' else { r' with df := min maxDistance (r.df + d) }

/-- A record left behind by reversing: APPROACHING or ARMED, further than max(0, O) + reverse drop (R81). -/
def PlumeRecord.leftBehind (c : Cfg) (r : PlumeRecord) : Bool :=
  decide (r.phase ≠ .engulfed) && decide (r.offset.toNat + c.timeline.reverseDrop < r.df)

/-- The records after a delta of a travel notice, each in its place (R78, R81). A delta of 0 changes no distance (log 31). -/
def movedRecords (delta : Nat) (reverse : Bool) (rs : List PlumeRecord) : List PlumeRecord :=
  if delta = 0 then rs
  else if reverse then sortRecords (rs.map (·.backUp delta))
  else sortRecords (rs.map (·.advance delta))

/-- The number of engulfed records. -/
def engulfedCount (rs : List PlumeRecord) : Nat := (rs.filter fun r => decide (r.phase = .engulfed)).length

/-- The lead for a speed and the closing time as it stands (R80). -/
def State.leadFor (s : State) (speed : Nat) : Nat :=
  min maxDistance (ceilDiv (speed * s.closingTime) 1000 + s.cfg.timeline.leadMargin)

/-- An APPROACHING record within the lead is made ARMED (R80). -/
def PlumeRecord.arm (lead : Nat) (r : PlumeRecord) : PlumeRecord :=
  if r.phase = .approaching ∧ r.df ≤ lead then { r with phase := .armed } else r

/-- Some record would be made ARMED by this lead. -/
def anyArms (lead : Nat) (rs : List PlumeRecord) : Bool :=
  rs.any fun r => decide (r.phase = .approaching) && decide (r.df ≤ lead)

/-- A travel notice taken by the timeline: the delta applied, records dropped or removed, the lead recomputed and
records armed, the PLUME state judged (R78–R81, R84). -/
def State.timelineTravel (s : State) (delta : Nat) (reverse : Bool) (speed : Nat) : State :=
  if s.timelineWorks = false then s
  else
    let moved := movedRecords delta reverse s.timeline.records
    let backing := reverse && decide (delta ≠ 0)
    let dropped := if backing then moved.filter (·.leftBehind s.cfg) else []
    let kept := if backing then moved.filter (fun r => !r.leftBehind s.cfg) else moved
    let lead := s.leadFor speed
    let left := dropPassed kept
    let became := decide (engulfedCount s.timeline.records < engulfedCount moved) || anyArms lead left
    let t := { s with timeline := { s.timeline with records := left.map (PlumeRecord.arm lead), lead := lead } }
    (t.bump .reverseDropped dropped.length).judgePlume became

/-- A loss notice makes every APPROACHING record ARMED (R82). -/
def State.timelineLoss (s : State) : State :=
  if s.timelineWorks = false then s
  else
    let became := s.timeline.records.any fun r => decide (r.phase = .approaching)
    (s.setRecords (s.timeline.records.map fun r =>
      if r.phase = .approaching then { r with phase := .armed } else r)).judgePlume became

/-! ## The caps (R83, R85, R86) -/

/-- APPROACH_CAP_EXPIRY: an APPROACHING or ARMED record whose age has reached the approach cap becomes ENGULFED with Df 0
(R83). -/
def execApproachCapExpiry (origin : Fin 8) (sequence : Fin 256) (s : State) : Host.Outcome State Fault Refusal :=
  match s.findRecord origin sequence.val with
  | none => finish s
  | some r =>
    if r.phase = .engulfed ∨ r.ageMs < seconds s.cfg.timeline.approachCapS then finish s
    else
      finish ((s.setRecords (sortRecords (s.timeline.records.map fun x =>
        if x.hasKey origin sequence.val then x.engulf else x))).judgePlume true)

/-- ENGULF_CAP_EXPIRY: an ENGULFED record whose engulf time has reached the engulf cap is removed and counted as capped
(R85). -/
def execEngulfCapExpiry (origin : Fin 8) (sequence : Fin 256) (s : State) : Host.Outcome State Fault Refusal :=
  match s.findRecord origin sequence.val with
  | none => finish s
  | some r =>
    if r.phase = .engulfed ∧ seconds s.cfg.timeline.engulfCapS ≤ r.engulfMs.getD 0 then
      finish (((s.setRecords (s.timeline.records.filter fun x => !x.hasKey origin sequence.val)).count
        .capped).judgePlume false)
    else finish s

/-- POST_HOLD_EXPIRY: the PLUME entry is withdrawn and the PLUME state becomes OFF (R86). -/
def execPostHoldExpiry (s : State) : Host.Outcome State Fault Refusal :=
  if s.timeline.hold = .postHold ∧ s.timeline.postHold.isSome then finish s.withdrawPlume else finish s

/-- RESET PLUME at an INLET: the timeline is emptied and the PLUME entry withdrawn; the lead is kept (R88). -/
def State.resetTimelineRecords (s : State) : State :=
  if s.timelineWorks = false then s
  else if s.timeline.hold = .off then s.setRecords []
  else (s.setRecords []).withdrawPlume

end Sys2Proof.Machine
end

