-- ==== Sys2Proof/Machine/Peers.lean ====
section
/-! DEFINITION. The peer table (chapter 2), and the meanings of STATUS_TAKEN, READING_TAKEN, READING_STALE and
SILENCE_LIMIT_REACHED. -/

namespace Sys2Proof.Machine

open Sys2Proof

/-- An entry takes a presence. -/
def State.setPresence (s : State) (n : Fin 8) (p : Presence) : State :=
  { s with peers := s.peers.set n { s.peers[n] with presence := p } }

/-- A cabin notice, when the cabin peer or the combined burden held for it differs from before (R35). -/
def State.noticeIfCabinChanged (s : State) (before : State) : State :=
  if s.cabinPeer = before.cabinPeer ∧ s.cabinBurden = before.cabinBurden then s else s.mixNotice

/-! ## STATUS (R25, R26, R27) -/

/-- A STATUS decoded into an entry's fields; none where it is unusable (R26). -/
def decodeStatus (f : Frame) : Option PeerInfo :=
  match roleOfCode (f.byte 0 % 4), announcedOfCode (f.byte 0 / 16 % 4) with
  | some role, some announced =>
    some
      { role := role, announced := announced, intervalMs := max 1 (f.byte 7) * 100, lastStatusMs := 0
        burden := burdenOfWord (f.word 4)
        regime := if role = .inlet then regimeOfCode (f.byte 1) else none
        damper := if role = .inlet then some (min 1023 (f.word 2)) else none
        summary := BitVec.ofNat 8 (f.byte 6), readings := [] }
  | _, _ => none

/-- The role change of entry `n`: its reading list is emptied and the demand list purges the peer (R27). -/
def State.roleChange (s : State) (n : Fin 8) (p : Presence) : State := (s.setPresence n p).purgePeer n

/-- A usable STATUS taken into entry `n`, by the entry's state and role before (R25). -/
def State.takeStatusInfo (s : State) (n : Fin 8) (new : PeerInfo) : State :=
  match s.peers[n].presence with
  | .absent => s.setPresence n (.present new)
  | .present old =>
    if old.role = new.role then s.setPresence n (.present { new with readings := old.readings })
    else (s.roleChange n (.present { old with readings := [] })).setPresence n (.present new)
  | .silent old =>
    if old.role = new.role then s.setPresence n (.present new)
    else (s.roleChange n (.silent { old with readings := [] })).setPresence n (.present new)

/-- A STATUS taken by the peer table. An unusable one is counted as an unknown kind (R26); the own entry is not used (R23). -/
def State.takeStatus (s : State) (f : Frame) : State :=
  match decodeStatus f with
  | none => s.count .unknownKinds
  | some new =>
    if f.station = s.startup.own then s else (s.takeStatusInfo f.station new).noticeIfCabinChanged s

/-- STATUS_TAKEN: the head of the receive queue is delivered to the peer table (R25, R172). -/
def execStatusTaken (s : State) : Host.Outcome State Fault Refusal :=
  match s.headOf 6 with
  | none => finish s
  | some f => finish (s.dequeue.takeStatus f)

/-! ## READING (R31, R32) -/

/-- A READING decoded; none where its kind, location or quality makes it unusable (R32). -/
def decodeReading (f : Frame) : Option Reading :=
  match kindOfCode (f.byte 0 % 8), locationOfCode (f.byte 0 / 8 % 4), qualityOfCode (f.byte 0 / 32) with
  | some k, some l, some q =>
    some { kind := k, location := l, quality := q, value := min 10000 (f.word 1), burden := burdenOfWord (f.word 3)
           ageMs := 0, stale := false }
  | _, _, _ => none

/-- The most records a reading list holds (R24). -/
def readingCapacity : Nat := 8

/-- A record placed in a reading list by its key: at the end, in place of the record of its key, or of the first of a
full list (R31). -/
def placeReading (rs : List Reading) (r : Reading) : List Reading :=
  if rs.any (·.hasKey r.kind r.location) then rs.filter (fun x => !x.hasKey r.kind r.location) ++ [r]
  else if rs.length < readingCapacity then rs ++ [r]
  else rs.drop 1 ++ [r]

/-- A READING taken into a PRESENT entry; a cabin notice follows the cabin peer's (CO2, CABIN) record (R31, R35). -/
def State.takeReading (s : State) (f : Frame) : State :=
  match s.peers[f.station].presence with
  | .absent => s
  | .silent _ => s
  | .present i =>
    match decodeReading f with
    | none => s.count .unknownKinds
    | some r =>
      let t := s.setPresence f.station (.present { i with readings := placeReading i.readings r })
      if s.cabinPeer = some f.station ∧ r.kind = .co2 ∧ r.location = .cabin then t.mixNotice else t

/-- READING_TAKEN: the head of the receive queue is delivered to the peer table (R31, R172). -/
def execReadingTaken (s : State) : Host.Outcome State Fault Refusal :=
  match s.headOf 7 with
  | none => finish s
  | some f => finish (s.dequeue.takeReading f)

/-- The record of a key marked stale, when its age has reached the staleness limit (R33). -/
def State.markStale (s : State) (k : Kind) (l : Location) (rs : List Reading) : List Reading :=
  rs.map fun r => if r.hasKey k l then { r with stale := s.isStale r } else r

/-- READING_STALE: a record whose age has reached the staleness limit becomes stale, and sends no notice; one that a
READING has just updated stays (R33). -/
def execReadingStale (n : Fin 8) (k : Kind) (l : Location) (s : State) : Host.Outcome State Fault Refusal :=
  match s.peers[n].presence with
  | .absent => finish s
  | .silent _ => finish s
  | .present i => finish (s.setPresence n (.present { i with readings := s.markStale k l i.readings }))

/-! ## Silence (R28, R29, R30) -/

/-- The fields of an entry that has gone SILENT (R29). -/
def PeerInfo.silenced (i : PeerInfo) : PeerInfo :=
  { i with readings := [], burden := none, regime := none, damper := none }

/-- The silence tally of an entry incremented, wrapping to 0 (R23, R29). -/
def State.raiseTally (s : State) (n : Fin 8) : State :=
  { s with peers := s.peers.set n { s.peers[n] with tally := (s.peers[n].tally + 1) % (maxCount + 1) } }

/-- A PRESENT entry goes SILENT, with all that R29 states. -/
def State.goSilent (s : State) (n : Fin 8) : State :=
  match s.peers[n].presence with
  | .absent => s
  | .silent _ => s
  | .present i =>
    let t := (s.setPresence n (.silent i.silenced)).purgePeer n
    let u := (t.raiseTally n).setFlag .peerLost
    if s.cabinPeer = some n then u.mixNotice else u

/-- The silence limit of an entry: 3 × I × f (R28). -/
def State.silenceLimit (s : State) (i : PeerInfo) : Nat := 3 * i.intervalMs * s.stretch.peer.factor

/-- A PRESENT entry whose last status time has reached its limit under the factor in force goes SILENT (R28, R30). -/
def State.checkSilence (s : State) (n : Fin 8) : State :=
  match s.peers[n].presence with
  | .absent => s
  | .silent _ => s
  | .present i => if s.silenceLimit i ≤ i.lastStatusMs then s.goSilent n else s

/-- SILENCE_LIMIT_REACHED: a PRESENT entry whose last status time has reached its limit goes SILENT. After a STATUS, or a
HUSH that lengthened the limit, it has not been reached, and the entry stays PRESENT (R28, R30). -/
def execSilenceLimitReached (n : Fin 8) (s : State) : Host.Outcome State Fault Refusal := finish (s.checkSilence n)

/-- After a fall of f, every entry is measured against its shorter limit, in station order (R30, log 24). -/
def State.limitsFell (s : State) : State := (List.finRange 8).foldl State.checkSilence s

/-- An entry whose stale records, under the factor in force, are marked so (log 25). -/
def State.latchedEntry (s : State) (e : PeerEntry) : PeerEntry :=
  match e.presence with
  | .absent => e
  | .silent _ => e
  | .present i =>
    { e with presence := .present { i with
        readings := i.readings.map fun r => { r with stale := s.isStale r } } }

/-- Before a rise of f, the records that are stale already are marked: they stay stale until updated (R30, R33, log 25). -/
def State.latchStale (s : State) : State := { s with peers := mapVector s.latchedEntry s.peers }

end Sys2Proof.Machine
end

