-- ==== Sys2Proof/Machine/Detector.lean ====
section
/-! DEFINITION. The sighting detector of a FORWARD (chapter 4), and the meanings of UPDATE_TIMER_EXPIRY and
MAX_OPEN_TIMER_EXPIRY. -/

namespace Sys2Proof.Machine

open Sys2Proof

/-- One smoothing step of a follower toward a new value, with a shift (R8). -/
def smooth (shift follower new : Nat) : Nat :=
  let diff : Int := (new : Int) - (follower : Int)
  let step := diff.tdiv (2 ^ shift)
  if step = 0 then (if follower < new then follower + 1 else if new < follower then follower - 1 else follower)
  else ((follower : Int) + step).toNat

/-- The detector takes a new value. -/
def State.setDetector (s : State) (d : Detector) : State := { s with detector := d }

/-- The update period (R59). -/
def updateTime : Nat := 250

/-- A slot is watched: in the sweep range, with plume watch, of kind PM or NO2 (R54). -/
def State.watched (s : State) (i : Fin 16) : Bool :=
  inSweep s.cfg i && s.cfg.slots[i].plumeWatch &&
    decide (s.cfg.slots[i].kind = .pm ∨ s.cfg.slots[i].kind = .no2)

/-- The excess burden XB of a watched slot (R56). -/
def State.excessBurden (s : State) (i : Fin 16) : Nat :=
  match s.slotValue i with
  | none => 0
  | some v =>
    let b := s.detector.baselines[i]
    if b.seeded then min 4000 ((v - b.value) * 1000 / s.cfg.slots[i].limit) else 0

/-- The watched slots, in slot order. -/
def State.watchedSlots (s : State) : List (Fin 16) := (List.finRange 16).filter s.watched

/-- Some watched XB is at or above a threshold (R56). -/
def State.anyAtLeast (s : State) (threshold : Nat) : Bool :=
  s.watchedSlots.any fun i => decide (threshold ≤ s.excessBurden i)

/-- The largest watched XB of this sweep end (R59). -/
def State.largestExcess (s : State) : Nat := s.watchedSlots.foldl (fun m i => max m (s.excessBurden i)) 0

/-- A kind has a watched slot whose XB is at or above the close threshold (R59). -/
def State.kindStandsOut (s : State) (k : Kind) : Bool :=
  s.watchedSlots.any fun i =>
    decide (s.cfg.slots[i].kind = k) && decide (s.cfg.detector.closeThreshold ≤ s.excessBurden i)

/-- The species that stand out at this sweep end (R59). -/
def State.standingOut (s : State) : Species := ⟨s.kindStandsOut .pm, s.kindStandsOut .no2⟩

/-- A watched slot's baseline brought up to date: seeded, moved or kept (R55). -/
def State.nextBaseline (s : State) (i : Fin 16) : Baseline :=
  let b := s.detector.baselines[i]
  if s.watched i then
    match s.slotValue i with
    | none => b
    | some v =>
      if b.seeded then { b with value := smooth s.cfg.detector.shift b.value v } else { value := v, seeded := true }
  else b

/-- Every baseline record brought up to date (R55). -/
def State.followBaselines (s : State) : State :=
  s.setDetector { s.detector with baselines := tabulate s.nextBaseline }

/-- SIGHT content formed and queued (R67, R68). -/
def State.postSight (s : State) (phase : SightPhase) : State := s.post .sight (sightFrame s phase)

/-- The sweep end folded into an open sighting (R60). -/
def State.foldSighting (s : State) : State :=
  s.setDetector { s.detector with
    peak := max s.detector.peak s.largestExcess
    species := ⟨s.detector.species.pm || s.standingOut.pm, s.detector.species.no2 || s.standingOut.no2⟩ }

/-- A sighting is opened (R59). -/
def State.openSighting (s : State) : State :=
  let d := { s.detector with
    state := .opened, sequence := (s.detector.sequence + 1) % 256, dsf := 0, peak := s.largestExcess
    species := s.standingOut, update := some updateTime, maxOpen := some (seconds s.cfg.detector.maxOpenS) }
  ((s.setDetector d).postSight .opened).count .sightingsOpened

/-- The detector's state, and its timers stopped, as a sighting ends (R61, R65, R69). -/
def Detector.ended (d : Detector) : Detector := { d with state := .clear, update := none, maxOpen := none }

/-- A sighting ends normally; the baselines are brought up to date in the same event (R61). -/
def State.closeSighting (s : State) : State :=
  ((s.setDetector s.detector.ended).postSight .closed).followBaselines

/-- The evaluation at a sweep end in RUNNING: one transition, then the baselines (R55–R61). -/
def State.evaluateDetector (s : State) : State :=
  let opens := s.anyAtLeast s.cfg.detector.openThreshold
  let stays := s.anyAtLeast s.cfg.detector.closeThreshold
  match s.detector.state with
  | .clear =>
    ((if opens then s.setDetector { s.detector with state := .pending } else s)).followBaselines
  | .pending =>
    if opens then s.openSighting
    else (s.setDetector { s.detector with state := .clear }).followBaselines
  | .opened =>
    let t := s.foldSighting
    if stays then t else t.setDetector { t.detector with state := .closing }
  | .closing =>
    let t := s.foldSighting
    if stays then t.setDetector { t.detector with state := .opened } else t.closeSighting

/-- The sweep end at the detector: it works on a FORWARD, and learns baselines alone in JOINING and CONFLICT (R69). -/
def State.detectorSweep (s : State) : State :=
  if s.startup.role = .forward then
    match s.startup.station with
    | .running => s.evaluateDetector
    | .joining => s.followBaselines
    | .conflict => s.followBaselines
    | .loading => s
  else s

/-- A travel notice at the detector: Dsf follows the delta while a sighting is open (R62). -/
def State.detectorTravel (s : State) (delta : Nat) (reverse : Bool) : State :=
  if s.startup.role = .forward ∧ (s.detector.state = .opened ∨ s.detector.state = .closing) then
    s.setDetector { s.detector with
      dsf := if reverse then s.detector.dsf - delta else min 65535 (s.detector.dsf + delta) }
  else s

/-- A loss or resync notice at the detector: the travel-lost marking (R63). -/
def State.detectorLost (s : State) (lost : Bool) : State :=
  if s.startup.role = .forward then s.setDetector { s.detector with travelLost := lost } else s

/-- UPDATE_TIMER_EXPIRY: UPDATE content is queued and counted, and the timer restarts (R64). -/
def execUpdateTimerExpiry (s : State) : Host.Outcome State Fault Refusal :=
  if s.detector.update.isSome then
    finish (((s.postSight .update).count .updatesQueued).setDetector { s.detector with update := some updateTime })
  else finish s

/-- A watched slot's baseline re-seeded at a forced close (R65). -/
def State.reseeded (s : State) (i : Fin 16) : Baseline :=
  if s.watched i then
    match s.slotValue i with
    | none => s.detector.baselines[i]
    | some v => { value := v, seeded := true }
  else s.detector.baselines[i]

/-- MAX_OPEN_TIMER_EXPIRY: the sighting ends by force (R65). -/
def execMaxOpenTimerExpiry (s : State) : Host.Outcome State Fault Refusal :=
  if s.detector.maxOpen.isSome then
    finish (((s.postSight .forcedClose).count .forcedCloses).setDetector
      { s.detector.ended with baselines := tabulate s.reseeded })
  else finish s

/-- An open or pending sighting is abandoned, with nothing queued and the baselines kept (R69). -/
def State.abandonSighting (s : State) : State := s.setDetector s.detector.ended

end Sys2Proof.Machine
end

