-- ==== Sys2Proof/Machine/Rules.lean ====
section
/-! DEFINITION. The rule table (sections 10.1 and 10.2). -/

namespace Sys2Proof.Machine

open Sys2Proof

/-- The value of an operand, or unknown (R153). -/
def State.operandValue (s : State) : Operand → Option Nat
  | .slotValue i => s.slotValue i
  | .slotBurden i => s.slotBurden i
  | .ownBurden => s.combinedBurden
  | .peerReading n k l => s.peerValue n k l
  | .speed => s.knownSpeed
  | .plumeCount => if s.startup.role = .inlet then some s.plumeCount else none

/-- The value of a comparand; a constant is always known (R153). -/
def State.comparandValue (s : State) : Comparand → Option Nat
  | .constant c => some c
  | .operand b => s.operandValue b

/-- The relation holds between a and c; while FIRING the comparand is moved by the hysteresis against the release (R154). -/
def relationHolds (rel : Relation) (firing : Bool) (h a c : Int) : Bool :=
  let m := if firing then h else 0
  match rel with
  | .ge => decide (c - m ≤ a)
  | .gt => decide (c - m < a)
  | .le => decide (a ≤ c + m)
  | .lt => decide (a < c + m)
  | .eq => decide (a - c ≤ m ∧ c - a ≤ m)
  | .ne => decide (a ≠ c)

/-- The state and tallies of a rule after a sweep end at which its operands are known (R155). -/
def RuleState.advance (c : RuleCfg) (r : RuleState) (holds : Bool) : RuleState :=
  match r.firing, holds with
  | false, true =>
    if c.fireCount ≤ r.fireTally + 1 then { firing := true, fireTally := 0, releaseTally := 0 }
    else { r with fireTally := r.fireTally + 1 }
  | false, false => { r with fireTally := 0 }
  | true, true => { r with releaseTally := 0 }
  | true, false =>
    if c.releaseCount ≤ r.releaseTally + 1 then { firing := false, fireTally := 0, releaseTally := 0 }
    else { r with releaseTally := r.releaseTally + 1 }

/-- A rule takes a state. -/
def State.setRule (s : State) (n : Fin 8) (r : RuleState) : State := { s with rules := s.rules.set n r }

/-- A rule's firing or release handed to the blocks that act on it (R156). -/
def State.ruleChanged (s : State) (n : Fin 8) (firing : Bool) : State :=
  let t := s.writeFlag (.rule n) firing
  match s.cfg.rules[n].action with
  | .none => t
  | .demand r level => t.conditionChanged (ruleSource n) r level firing
  | .safe => t.ruleSafeChanged

/-- One rule at a sweep end: unknown operands leave it as it was (R155). -/
def State.evaluateRule (s : State) (n : Fin 8) : State :=
  let c := s.cfg.rules[n]
  if c.enabled then
    match s.operandValue c.operandA, s.comparandValue c.comparand with
    | some a, some b =>
      let old := s.rules[n]
      let new := RuleState.advance c old (relationHolds c.relation old.firing c.hysteresis a b)
      let t := s.setRule n new
      if new.firing = old.firing then t else t.ruleChanged n new.firing
    | _, _ => s
  else s

/-- The sweep end at the rule table: the enabled rules in rule order; it does not run in LOADING (R155). -/
def State.evaluateRules (s : State) : State :=
  if s.startup.station = .loading then s else (List.finRange 8).foldl State.evaluateRule s

end Sys2Proof.Machine
end

