-- ==== Sys2Proof/Machine/Sensing.lean ====
section
/-! DEFINITION. The sensor sequencer (sections 1.2 to 1.4), and the meanings of DWELL_EXPIRY, WARM_UP_EXPIRY and
SUSPECT_TIMER_EXPIRY. -/

namespace Sys2Proof.Machine

open Sys2Proof

/-! ## From code to value (R6–R9) -/

/-- The calibrated code V (R6). -/
def calibrate (c : SlotCfg) (code : Nat) : Nat :=
  (max 0 (min 4095 (((code : Int) * (4096 + c.gain)).tdiv 4096 + c.offset))).toNat

/-- The engineering value U (R7). -/
def engineering (c : SlotCfg) (v : Nat) : Nat := v * c.fullScale / 4095

/-- The burden formed from a slot's S (R9). -/
def burdenOf (c : SlotCfg) (seeded : Bool) (value : Nat) : Option Nat :=
  if seeded && c.kind.isPollutant then some (min 4000 (value * 1000 / c.limit)) else none

/-- The conversion is on the rails (R11). -/
def onRails (c : SlotCfg) (code : Nat) : Bool := c.railCheck && decide (code = 0 ∨ code = 4095)

/-- S seeded from U: the slot is GOOD, its suspect timer cancelled (R11). -/
def SlotRecord.seed (r : SlotRecord) (u : Nat) : SlotRecord :=
  { r with quality := .good, value := u, seeded := true, suspect := none }

/-- The slot enters SUSPECT: S held, the suspect timer started with the fault time (R11, R12). -/
def SlotRecord.enterSuspect (r : SlotRecord) (faultMs : Nat) : SlotRecord :=
  { r with quality := .suspect, suspect := some faultMs }

/-- The quality and S after a conversion (R11). -/
def SlotRecord.judge (c : SlotCfg) (faultMs : Nat) (r : SlotRecord) (code : Nat) : SlotRecord :=
  let u := engineering c (calibrate c code)
  match r.quality with
  | .absent => r
  | .warming =>
    if r.warmedUp then (if onRails c code then r.enterSuspect faultMs else r.seed u) else r
  | .good =>
    if onRails c code then r.enterSuspect faultMs else { r with value := smooth c.shift r.value u }
  | .suspect => if onRails c code then r else r.seed u
  | .fault => if onRails c code then r else r.seed u

/-- The value record after a conversion: judged, with the burden formed from the resulting S (R9, R11). -/
def SlotRecord.convert (c : SlotCfg) (faultMs : Nat) (r : SlotRecord) (code : Nat) : SlotRecord :=
  let j := r.judge c faultMs code
  { j with burden := burdenOf c j.seeded j.value }

/-- A slot's record takes a value. -/
def State.setRecord (s : State) (i : Fin 16) (r : SlotRecord) : State :=
  { s with sequencer := { s.sequencer with records := s.sequencer.records.set i r } }

/-- At least one slot is FAULT (R14). -/
def State.anyFault (s : State) : Bool :=
  (List.finRange 16).any fun i => decide (s.sequencer.records[i].quality = .fault)

/-- SENSOR_FAULT is evaluated (R14). -/
def State.evaluateSensorFault (s : State) : State := s.writeFlag .sensorFault s.anyFault

/-! ## The sweep (R3, R4) -/

/-- The sweep end announced to its four users; the order of rule table and mix law is the command's (R4, log 6). -/
def State.sweepEnd (s : State) (order : SweepOrder) : State :=
  let t := s.detectorSweep
  let u :=
    match order with
    | .rulesFirst => t.evaluateRules.mixNotice
    | .mixFirst => t.mixNotice.evaluateRules
  u.stallCheck

/-- The slot whose turn comes after slot `i` (R3). -/
def nextSlot (c : Cfg) (i : Fin 16) : Fin 16 :=
  if i = c.stopSlot then sweepStart c else ⟨(i.val + 1) % 16, Nat.mod_lt _ (by decide)⟩

/-- A slot's turn comes: its channel is selected and its dwell starts (R3). -/
def State.startDwell (s : State) (i : Fin 16) : State :=
  { s with sequencer := { s.sequencer with position := i, dwell := some s.cfg.slots[i].dwell.ms } }

/-- The conversion of slot `i` judged and its record updated; a NONE channel keeps its record (R3). -/
def State.convertSlot (s : State) (i : Fin 16) (code : Nat) : State :=
  let c := s.cfg.slots[i]
  match c.channel with
  | none => s
  | some _ =>
    (s.setRecord i ((s.sequencer.records[i]).convert c (seconds s.cfg.faultTimeS) code)).evaluateSensorFault

/-- DWELL_EXPIRY: the conversion of the slot at the sweep position completes with the raw code taken from its channel
(R3). -/
def execDwellExpiry (code : Nat) (order : SweepOrder) (s : State) : Host.Outcome State Fault Refusal :=
  if s.sequencer.dwell.isSome then
    let i := s.sequencer.position
    let t := s.convertSlot i code
    let u := if i = s.cfg.stopSlot then t.sweepEnd order else t
    finish (u.startDwell (nextSlot s.cfg i))
  else finish s

/-- WARM_UP_EXPIRY: the slot's warm-up has elapsed; its quality and values stay (R10). -/
def execWarmUpExpiry (i : Fin 16) (s : State) : Host.Outcome State Fault Refusal :=
  let r := s.sequencer.records[i]
  if r.warmUp.isSome then finish (s.setRecord i { r with warmedUp := true, warmUp := none }) else finish s

/-- SUSPECT_TIMER_EXPIRY: the slot becomes FAULT with S held, and SENSOR_FAULT is evaluated (R12). -/
def execSuspectTimerExpiry (i : Fin 16) (s : State) : Host.Outcome State Fault Refusal :=
  let r := s.sequencer.records[i]
  if r.suspect.isSome then
    finish (s.setRecord i { r with quality := .fault, suspect := none }).evaluateSensorFault
  else finish s

end Sys2Proof.Machine
end

