-- ==== Sys2Proof/Machine/Travel.lean ====
section
/-! DEFINITION. The travel source and the travel tracker (chapter 3), and the meanings of ODO_PULSE,
TRAVEL_TIMER_EXPIRY, STANDSTILL_TIMER_EXPIRY, TRAVEL_TAKEN and LOSS_TIMER_EXPIRY. -/

namespace Sys2Proof.Machine

open Sys2Proof

/-! ## The source (R39–R43) -/

/-- The source works on a station with the travel source flag, outside LOADING (R39). -/
def State.sourceWorks (s : State) : Bool := s.cfg.travelSource && decide (s.startup.station ≠ .loading)

/-- The standstill time (R42). -/
def standstillTime : Nat := 1000

/-- The travel period (R41). -/
def travelTime : Nat := 100

/-- The current window part after a gain: its range is 0–65535 (R39), and R40 gives neither a cap nor a wrap, so a part
that outgrows it is a free value (log 36). -/
def gainPart (part dm : Nat) : Nat :=
  if part + dm ≤ 65535 then part + dm else (Config.partBeyond (part + dm)).toNat

/-- One pulse at the source: 100 into the accumulator, whole decimetres out of it into the count and the current part
(R40, log 36). -/
def Source.pulse (scale : Nat) (c : Source) : Source :=
  let dm := (c.accumulator + 100) / scale
  { c with
    accumulator := (c.accumulator + 100) % scale, count := (c.count + dm) % 65536, current := gainPart c.current dm
    standstill := false, standstillTimer := some standstillTime }

/-- ODO_PULSE (R40, R42). -/
def execOdoPulse (s : State) : Host.Outcome State Fault Refusal :=
  if s.sourceWorks then finish { s with source := s.source.pulse s.cfg.pulseScale } else finish s

/-- STANDSTILL_TIMER_EXPIRY: no pulse for 1000 ms (R42). -/
def execStandstillTimerExpiry (s : State) : Host.Outcome State Fault Refusal :=
  if s.source.standstillTimer.isSome then
    finish { s with source := { s.source with standstill := true, standstillTimer := none } }
  else finish s

/-- The closed parts after the current part is closed (R41). -/
def shiftParts (parts : Vector Nat 5) (current : Nat) : Vector Nat 5 :=
  ⟨(parts.toList.drop 1 ++ [current]).toArray, by simp⟩

/-- The travel timer closes the window part, forms the speed, advances the sequence and restarts (R41, R43). -/
def Source.close (c : Source) : Source :=
  let parts := shiftParts c.parts c.current
  { c with
    parts := parts, current := 0, speed := min 1000 (2 * parts.toList.sum), sequence := (c.sequence + 1) % 256
    travelTimer := some travelTime }

/-! ## The tracker (R45–R51) -/

/-- A decoded TRAVEL (R46). -/
structure Travel where
  count : Nat
  speed : Nat
  ignition : Bool
  reverse : Bool
  sequence : Nat
deriving DecidableEq, Repr

/-- A TRAVEL decoded: the speed capped at 1000, and 0 with the standstill flag (R46). -/
def decodeTravel (f : Frame) : Travel :=
  { count := f.word 0, speed := if (f.byte 4).testBit 2 then 0 else min 1000 (f.word 2)
    ignition := (f.byte 4).testBit 0, reverse := (f.byte 4).testBit 1, sequence := f.byte 5 }

/-- The loss timer as it is started: 500 ms, and never on a travel source (R45, R49, R51). -/
def lossTime (c : Cfg) : Timer := if c.travelSource then none else some 500

/-- The tracker's fields taken from a TRAVEL, with its sender as reference (R47, R48, R49). -/
def Tracker.follow (c : Cfg) (n : Fin 8) (m : Travel) : Tracker :=
  { state := .tracking, reference := some n, lastCount := m.count, lastSequence := m.sequence, speed := m.speed
    ignition := m.ignition, reverse := m.reverse, loss := lossTime c }

/-- The tracker takes a new value. -/
def State.setTracker (s : State) (t : Tracker) : State := { s with tracker := t }

/-- A travel notice, handed to the detector and the timeline (R50). -/
def State.travelNotice (s : State) (delta : Nat) (m : Travel) : State :=
  (s.detectorTravel delta m.reverse).timelineTravel delta m.reverse m.speed

/-- A change of the ignition state, handed to the demand list (R52). -/
def State.ignitionNotice (s : State) (before : Bool) : State :=
  if s.tracker.ignition = before then s else s.reselect

/-- A TRAVEL taken from `n` as the reference, with its delta handed on; the order of notice and ignition change is the
command's (R50, R52, log 7). -/
def State.trackerFollows (s : State) (n : Fin 8) (m : Travel) (delta : Nat) (order : TravelOrder) : State :=
  let t := s.setTracker (Tracker.follow s.cfg n m)
  match order with
  | .noticeFirst => (t.travelNotice delta m).ignitionNotice s.tracker.ignition
  | .ignitionFirst => (t.ignitionNotice s.tracker.ignition).travelNotice delta m

/-- The distance between two wrapping counts (R48). -/
def countDelta (new old : Nat) : Nat := (new + 65536 - old) % 65536

/-- The largest delta that is travel (R48). -/
def maxDelta : Nat := 600

/-- A TRAVEL from the reference while TRACKING (R48). -/
def State.trackerHears (s : State) (n : Fin 8) (m : Travel) (order : TravelOrder) : State :=
  let d := countDelta m.count s.tracker.lastCount
  if m.sequence = s.tracker.lastSequence then s.setTracker { s.tracker with loss := lossTime s.cfg }
  else if d ≤ maxDelta then s.trackerFollows n m d order
  else ((s.count .discontinuities).setFlag .travelDiscontinuity).trackerFollows n m 0 order

/-- A TRAVEL taken while UNSYNCED or LOST: the resync (R47, R51). -/
def State.trackerResyncs (s : State) (n : Fin 8) (m : Travel) (order : TravelOrder) : State :=
  ((s.clearFlag .travelLost).detectorLost false).trackerFollows n m 0 order

/-- A TRAVEL taken by the tracker, by its state and the sender's number (R47, R48, R49). -/
def State.trackerTakes (s : State) (n : Fin 8) (m : Travel) (order : TravelOrder) : State :=
  match s.tracker.state, s.tracker.reference with
  | .unsynced, _ => s.trackerResyncs n m order
  | .lost, _ => s.trackerResyncs n m order
  | .tracking, none => s.trackerFollows n m 0 order
  | .tracking, some r =>
    if n = r then s.trackerHears n m order
    else if n < r then s.trackerFollows n m 0 order
    else s.count .travelIgnored

/-- TRAVEL_TIMER_EXPIRY: the source forms TRAVEL content, queues it and feeds the own tracker (R41, R43, R49). -/
def execTravelTimerExpiry (order : TravelOrder) (s : State) : Host.Outcome State Fault Refusal :=
  if s.source.travelTimer.isSome then
    let t := { s with source := s.source.close }
    let f := travelFrame t
    finish ((t.post .travel f).trackerTakes s.startup.own (decodeTravel f) order)
  else finish s

/-- TRAVEL_TAKEN: the head of the receive queue is delivered to the tracker; a source ignores and counts it (R46, R49, R172). -/
def execTravelTaken (order : TravelOrder) (s : State) : Host.Outcome State Fault Refusal :=
  match s.headOf 4 with
  | none => finish s
  | some f =>
    if s.cfg.travelSource then finish (s.dequeue.count .travelIgnored)
    else finish (s.dequeue.trackerTakes f.station (decodeTravel f) order)

/-- LOSS_TIMER_EXPIRY: the tracker becomes LOST, with its flag and loss notice (R51). -/
def execLossTimerExpiry (s : State) : Host.Outcome State Fault Refusal :=
  if s.tracker.loss.isSome then
    let t := (s.setTracker { s.tracker with state := .lost, loss := none }).setFlag .travelLost
    finish (t.detectorLost true).timelineLoss
  else finish s

end Sys2Proof.Machine
end

