-- ==== Sys2Proof/Machine/Startup.lean ====
section
/-! DEFINITION. The start-up controller (chapter 13): the resets, the entries to JOINING, RUNNING and CONFLICT, and the
meanings of POWER_ON_RESET, LOADING_COMPLETE, JOINING_TIMER_EXPIRY and FULL_RESET_CARRIED_OUT. -/

namespace Sys2Proof.Machine

open Sys2Proof

/-! ## Resets (R180, R185) -/

/-- The frame on offer joins those whose outcomes are still to come (R165, log 14). -/
def Transmit.abandon (x : Transmit) : List Frame := x.abandoned ++ x.offer.toList

/-- Every owner in its power-on state, LOADING entered and the straps read afresh (R180). The pins and the waiting
commands are not the part's. A frame on offer is abandoned, and its outcome is still to come (R165, R173, log 14). -/
def State.coldReset (s : State) : State :=
  { State.afterReset s.pins s.pending with transmit := { resetTransmit with abandoned := s.transmit.abandon } }

/-- A RESET ALL carried out: as a power-on reset (R185). -/
def State.fullReset (s : State) : State := s.coldReset

/-- POWER_ON_RESET (R180). -/
def execPowerOnReset (s : State) : Host.Outcome State Fault Refusal := finish s.coldReset

/-- FULL_RESET_CARRIED_OUT: a pending RESET ALL is carried out (R185, log 19). -/
def execFullResetCarriedOut (s : State) : Host.Outcome State Fault Refusal :=
  if s.startup.pendingReset then finish s.fullReset else finish s

/-! ## The entry to JOINING (R183) -/

/-- The role and the configuration in use, with the two CONFIG flags; the new class map applies at once (R163, R180). -/
def State.takeConfiguration (s : State) (l : Loaded) : State :=
  (({ s with startup := { s.startup with role := l.role }, cfg := l.cfg }).writeFlag .configDefault
    l.isDefault).writeFlag .configAdjusted l.adjusted

/-- A slot's value record as the sequencer starts: reset, with its warm-up running; a warm-up of 0 has elapsed (R10, R17).
An ABSENT slot has no warm-up timer (R13) and its warm-up elapsed state is clear: the model's choice (log 42). -/
def startedRecord (c : Cfg) (i : Fin 16) : SlotRecord :=
  let r := resetRecord c i
  if r.quality = .warming then
    if c.slots[i].warmUpS = 0 then { r with warmedUp := true }
    else { r with warmUp := some (seconds c.slots[i].warmUpS) }
  else r

/-- The sequencer started: records reset, warm-ups running, the start slot's dwell running (R5). -/
def startedSequencer (c : Cfg) : Sequencer :=
  { records := tabulate fun i => startedRecord c i, position := sweepStart c
    dwell := some c.slots[sweepStart c].dwell.ms }

/-- The tracker of a travel source follows itself from the entry to JOINING (R49). -/
def Tracker.ownReference (t : Tracker) (own : Fin 8) : Tracker :=
  { t with state := .tracking, reference := some own, lastCount := 0, lastSequence := 0, loss := none }

/-- Station state, joining timer and the blocks that start on every role: sequencer, inputs, travel source and its
tracker, lead, accounting and routine timers (R5, R22, R39, R49, R87, R142, R167, R183). -/
def State.startBlocks (s : State) : State :=
  let c := s.cfg
  { s with
    startup := { s.startup with station := .joining, joining := some (routinePeriod (2 * c.statusInterval) 1) }
    sequencer := startedSequencer c
    inputs := resetInputs s.pins
    source := { s.source with travelTimer := if c.travelSource then some travelTime else none }
    tracker := if c.travelSource then s.tracker.ownReference s.startup.own else s.tracker
    timeline := { s.timeline with lead := c.timeline.leadMargin }
    accounting := { s.accounting with timer := some accountingTime }
    link := { s.link with
      status := some (routinePeriod c.statusInterval s.stretch.interval.factor)
      reading := some (routinePeriod c.readingInterval s.stretch.interval.factor) } }

/-- An INLET at the entry to JOINING: the regime is SAFE, the safe codes are ordinary targets, and a force request and
active switches enter at once, in the order of R111 (R103, R110, R139, log 23). -/
def State.inletJoins (s : State) : State :=
  let t := ({ s with regime := .safe }).takeTargets s.cfg.mix.safeDamper s.cfg.mix.safeBlower
  let u := if s.forceRequest then t.setForceMember true else t
  let v := if s.recircSwitch then u.raiseLocal 2 .recirc s.cfg.driverLevel else u
  if s.flushSwitch then v.raiseLocal 3 .flush s.cfg.driverLevel else v

/-- The entry to JOINING; the STATUS content is formed last (R167, R183, log 26). -/
def State.enterJoining (s : State) : State :=
  let t := s.startBlocks
  let u := if t.startup.role = .inlet then t.inletJoins else t
  u.post .status (statusFrame u)

/-- LOADING_COMPLETE: the image read decides role and configuration, and the station enters JOINING (R180). -/
def execLoadingComplete (image : List Byte) (s : State) : Host.Outcome State Fault Refusal :=
  if s.startup.station = .loading then
    finish (s.takeConfiguration (loadImage s.startup.strap.val image)).enterJoining
  else finish s

/-! ## The entry to RUNNING (R183) -/

/-- The station is RUNNING; the demand list of an INLET selects its regime again, and the emitters of the other roles
take the conditions that hold (R103, R105, R106, R183). -/
def State.enterRunning (s : State) : State :=
  let t := { s with startup := { s.startup with station := .running, joining := none } }
  if t.startup.role = .inlet then t.rederive else t.emittersTake

/-- JOINING_TIMER_EXPIRY (R183). -/
def execJoiningTimerExpiry (s : State) : Host.Outcome State Fault Refusal :=
  if s.startup.station = .joining ∧ s.startup.joining.isSome then finish s.enterRunning else finish s

/-! ## The entry to CONFLICT (R184) -/

/-- The fixed period of the status timer in CONFLICT (R167). -/
def conflictPeriod : Nat := 5000

/-- Every mailbox and FIFO except STATUS emptied (R173). -/
def Boxes.onlyStatus (b : Boxes) : Boxes := { emptyBoxes with status := b.status }

/-- The link controller, the detector, the emitters and the scrub at the entry to CONFLICT (R69, R105, R106, R108,
R167, R173, log 17). A frame on offer stays on offer until its outcome, and STATUS waits for it (R165, log 39). -/
def State.quiet (s : State) : State :=
  ({ s with
    startup := { s.startup with station := .conflict, joining := none }
    transmit := { s.transmit with boxes := s.transmit.boxes.onlyStatus }
    link := { s.link with status := some conflictPeriod, reading := none }
    emitters := resetEmitters, scrub := scrubOff }).abandonSighting

/-- The entry to CONFLICT. When the ACCEPTED of a pending RESET ALL is removed by it, the reset is carried out at once
(R177, R184). -/
def State.enterConflict (s : State) : State :=
  if s.transmit.boxes.holdsAccept then s.fullReset
  else (s.quiet.setFlag .conflict).setConflictMember

end Sys2Proof.Machine
end

