-- ==== Sys2Proof/Machine/Link.lean ====
section
/-! DEFINITION. The link controller (chapter 11): outcomes, link state, routine timers, reception, crowding and stretch,
and the meanings of SENT, ARBITRATION_LOST, FAILED, WITHDRAWAL_TIMER_EXPIRY, STATUS_TIMER_EXPIRY, READING_TIMER_EXPIRY,
FRAME_RECEIVED, GUARD_EXPIRY, HUSH_TAKEN and STRETCH_END. -/

namespace Sys2Proof.Machine

open Sys2Proof

/-! ## Outcomes (R165, R166) -/

/-- The score at which the link is PASSIVE (R166). -/
def passiveScore : Nat := 96

/-- The score at which the link is WITHDRAWN (R166). -/
def withdrawnScore : Nat := 192

/-- The largest score (R166). -/
def maxScore : Nat := 255

/-- The time a withdrawal lasts (R166). -/
def withdrawalTime : Nat := 2000

/-- The link's score and state take values. -/
def State.setLink (s : State) (score : Nat) (st : LinkState) : State :=
  { s with link := { s.link with score := score, state := st } }

/-- The frame on offer is removed from its mailbox, unless newer content has taken its place (R165). -/
def Boxes.removeOffered (b : Boxes) : Boxes := b.update fun h => if h.offered then none else some h

/-- The frame on offer stays in its mailbox, no longer on offer (R165). -/
def Boxes.keepOffered (b : Boxes) : Boxes := b.update fun h => some { h with offered := false }

/-- The held frame on offer is the ACCEPTED of the pending RESET ALL (R177). -/
def Boxes.acceptOffered (b : Boxes) : Bool := b.answer.any fun h => h.offered && h.acceptsReset

/-- The mailboxes after an outcome, with nothing on offer. -/
def State.settleOffer (s : State) (b : Boxes) : State :=
  { s with transmit := { s.transmit with boxes := b, offer := none } }

/-- The outcome of an abandoned frame has come; `rest` are still to come (log 14). -/
def State.setAbandoned (s : State) (rest : List Frame) : State :=
  { s with transmit := { s.transmit with abandoned := rest } }

/-- A SENT lowers the score by 1, and below 96 a PASSIVE station is ACTIVE again (R165, R166). -/
def State.scoreSent (s : State) : State :=
  let score := s.link.score - 1
  if s.link.state = .passive ∧ score < passiveScore then (s.setLink score .active).clearFlag .linkPassive
  else s.setLink score s.link.state

/-- The withdrawal: mailboxes emptied, counted, the timer started, the flags changed (R166). -/
def State.withdraw (s : State) (score : Nat) : State :=
  let t := { s with
    link := { s.link with score := score, state := .withdrawn, withdrawal := some withdrawalTime }
    transmit := { boxes := emptyBoxes, offer := none, abandoned := s.transmit.abandon } }
  ((t.count .withdrawals).setFlag .linkWithdrawn).clearFlag .linkPassive

/-- A FAILED raises the score by 8 and may make the station PASSIVE or WITHDRAWN (R165, R166). -/
def State.scoreFailed (s : State) : State :=
  let score := min maxScore (s.link.score + 8)
  match s.link.state with
  | .withdrawn => s.setLink score .withdrawn
  | .active =>
    if withdrawnScore ≤ score then s.withdraw score
    else if passiveScore ≤ score then (s.setLink score .passive).setFlag .linkPassive
    else s.setLink score .active
  | .passive => if withdrawnScore ≤ score then s.withdraw score else s.setLink score .passive

/-- The outcome of an abandoned frame that comes in LOADING. It changes the score and the counters (R165). The link state
stays as the reset left it and every flag stays clear until LOADING is over (R163, R173, log 14). -/
def State.scoreInLoading (s counted : State) (score : Nat) : State :=
  ({ counted with flags := s.flags }).setLink score s.link.state

/-- The end of an outcome event: a RESET ALL whose ACCEPTED frame had its first outcome, or was removed, is carried out
in the event (R177, R185). -/
def State.resetIf (s : State) (due : Bool) : State := if due then s.fullReset else s

/-- What a SENT counts: a frame sent, and a hush sent for a HUSH (R165). -/
def State.countSent (s : State) (f : Frame) : State :=
  let t := s.count .framesSent
  if f.kind = 2 then t.count .hushSent else t

/-- SENT: the frame on offer is removed (R165). The outcome of an abandoned frame comes first: it changes the score and
removes nothing (R165, log 14). -/
def execSent (s : State) : Host.Outcome State Fault Refusal :=
  match s.transmit.abandoned, s.transmit.offer with
  | f :: rest, _ =>
    let t := (s.setAbandoned rest).countSent f
    if s.startup.station = .loading then finish (s.scoreInLoading t (s.link.score - 1)) else finish t.scoreSent
  | [], some f =>
    let b := s.transmit.boxes
    finish ((((s.settleOffer b.removeOffered).countSent f).scoreSent).resetIf b.acceptOffered)
  | [], none => finish s

/-- ARBITRATION_LOST: the frame stays and the score is unchanged (R165). -/
def execArbitrationLost (s : State) : Host.Outcome State Fault Refusal :=
  match s.transmit.abandoned, s.transmit.offer with
  | _ :: rest, _ => finish (s.setAbandoned rest)
  | [], some _ =>
    let b := s.transmit.boxes
    finish ((s.settleOffer b.keepOffered).resetIf b.acceptOffered)
  | [], none => finish s

/-- The ACCEPTED of a pending RESET ALL was held in `b` and is held no longer: the withdrawal removed it (R177). -/
def State.acceptRemoved (s : State) (b : Boxes) : Bool := b.holdsAccept && !s.transmit.boxes.holdsAccept

/-- FAILED: the frame stays, the score rises and the link may become PASSIVE or WITHDRAWN (R165, R166). -/
def execFailed (s : State) : Host.Outcome State Fault Refusal :=
  let b := s.transmit.boxes
  match s.transmit.abandoned, s.transmit.offer with
  | _ :: rest, _ =>
    let c := (s.setAbandoned rest).count .sendFailures
    let t := c.scoreFailed
    if s.startup.station = .loading then finish (s.scoreInLoading c (min maxScore (s.link.score + 8)))
    else finish (t.resetIf (t.acceptRemoved b))
  | [], some _ =>
    let t := ((s.settleOffer b.keepOffered).count .sendFailures).scoreFailed
    finish (t.resetIf (b.acceptOffered || t.acceptRemoved b))
  | [], none => finish s

/-- WITHDRAWAL_TIMER_EXPIRY: the score becomes 0 and the state ACTIVE; the waiting content is offered (R166). -/
def execWithdrawalTimerExpiry (s : State) : Host.Outcome State Fault Refusal :=
  if s.link.state = .withdrawn ∧ s.link.withdrawal.isSome then
    let t := { s with link := { s.link with score := 0, state := .active, withdrawal := none } }
    finish (t.clearFlag .linkWithdrawn)
  else finish s

/-! ## Routine timers (R167) -/

/-- The period the status timer restarts with: the fixed 5000 ms in CONFLICT (R167). -/
def State.statusPeriod (s : State) : Nat :=
  if s.startup.station = .conflict then conflictPeriod
  else routinePeriod s.cfg.statusInterval s.stretch.interval.factor

/-- STATUS_TIMER_EXPIRY: STATUS content is queued and the timer restarts (R167). -/
def execStatusTimerExpiry (s : State) : Host.Outcome State Fault Refusal :=
  if s.link.status.isSome then
    finish (({ s with link := { s.link with status := some s.statusPeriod } }).post .status (statusFrame s))
  else finish s

/-- A slot is published: in the sweep range with the publish option (R1, R2). -/
def State.published (s : State) (i : Fin 16) : Bool := inSweep s.cfg i && s.cfg.slots[i].publish

/-- The READING of a published slot queued (R167). -/
def State.postReading (s : State) (i : Fin 16) : State :=
  if s.published i then s.post (.reading i) (readingFrame s i) else s

/-- READING_TIMER_EXPIRY: one READING for each published slot, and the timer restarts (R167). -/
def execReadingTimerExpiry (s : State) : Host.Outcome State Fault Refusal :=
  if s.link.reading.isSome then
    let period := routinePeriod s.cfg.readingInterval s.stretch.interval.factor
    let t := { s with link := { s.link with reading := some period } }
    finish ((List.finRange 16).foldl State.postReading t)
  else finish s

/-! ## The stretch (R171) -/

/-- A part of the stretch raised: the larger factor, the later end (R171). -/
def StretchFactor.raise (p : StretchFactor) (factor durationMs : Nat) : StretchFactor :=
  { factor := max p.factor factor, left := some (max (p.left.getD 0) durationMs) }

/-- The stretch takes a value. -/
def State.setStretch (s : State) (x : Stretch) : State := { s with stretch := x }

/-- The stretch factor f raised: records that are stale already stay stale (R30, R33, R171). -/
def State.raisePeerStretch (s : State) (factor durationMs : Nat) : State :=
  s.latchStale.setStretch { s.stretch with peer := s.stretch.peer.raise factor durationMs }

/-- The factor taken from a HUSH's field: none for 0 and 1 (R171). -/
def hushFactor (b : Nat) : Option Nat := if b < 2 then none else if b < 4 then some 2 else some 4

/-- The duration taken from a HUSH's field, in ms (R171). -/
def hushDuration (b : Nat) : Nat := max 1 (min 100 b) * 100

/-- A HUSH taken by the stretch (R171). -/
def State.takeHush (s : State) (f : Frame) : State :=
  let t := s.count .hushHeard
  match hushFactor (f.byte 0) with
  | none => t
  | some factor =>
    let u := t.raisePeerStretch factor (hushDuration (f.byte 1))
    u.setStretch { u.stretch with interval := u.stretch.interval.raise factor (hushDuration (f.byte 1)) }

/-- HUSH_TAKEN: the head of the receive queue is delivered to the stretch (R171, R172). -/
def execHushTaken (s : State) : Host.Outcome State Fault Refusal :=
  match s.headOf 2 with
  | none => finish s
  | some f => finish (s.dequeue.takeHush f)

/-- The stretch factor f returns to 1; a fall shortens the peer table's limits (R30, R171). -/
def State.endPeerStretch (s : State) : State :=
  let t := s.setStretch { s.stretch with peer := noStretch }
  if 1 < s.stretch.peer.factor then t.limitsFell else t

/-- STRETCH_END: a part whose end has come returns to 1 (R171). -/
def execStretchEnd (part : StretchPart) (s : State) : Host.Outcome State Fault Refusal :=
  match part with
  | .peer => if s.stretch.peer.left.isSome then finish s.endPeerStretch else finish s
  | .interval =>
    if s.stretch.interval.left.isSome then finish (s.setStretch { s.stretch with interval := noStretch })
    else finish s

/-! ## Crowding and the hush logic (R170) -/

/-- The guard's time (R170). -/
def guardTime : Nat := 2000

/-- The duration of a HUSH this station sends, in 100 ms units (R170). -/
def hushUnits : Nat := 20

/-- The capacity of the receive queue (R169). -/
def queueCapacity : Nat := 16

/-- The queue length from which an insertion is crowding (R169). -/
def crowdingLength : Nat := 12

/-- The guard takes a value. -/
def State.setGuard (s : State) (g : Option Guard) : State := { s with receive := { s.receive with guard := g } }

/-- A HUSH queued: the guard started, the own stretch factor raised (R170). -/
def State.sendHush (s : State) (four : Bool) : State :=
  let factor := if four then 4 else 2
  ((s.setGuard (some { four := four, leftMs := guardTime })).post .hush (hushFrame s factor hushUnits)).raisePeerStretch
    factor (hushUnits * 100)

/-- A crowding event, with the queue as it stands; not answered in CONFLICT (R170). -/
def State.crowding (s : State) : State :=
  let four := decide (queueCapacity ≤ s.receive.queue.length)
  if s.startup.station = .conflict then s
  else
    match s.receive.guard with
    | none => s.sendHush four
    | some g => if four && !g.four then s.sendHush true else s

/-- GUARD_EXPIRY: the guard has run out (R170). -/
def execGuardExpiry (s : State) : Host.Outcome State Fault Refusal :=
  if s.receive.guard.isSome then finish (s.setGuard none) else finish s

/-! ## Reception (R168, R169) -/

/-- The receive queue takes a value. -/
def State.setQueue (s : State) (q : List Frame) : State := { s with receive := { s.receive with queue := q } }

/-- A frame is a SAFE. -/
def isSafeFrame (f : Frame) : Bool := decide (f.kind = 1)

/-- A frame discarded or removed on a full queue: counted, with its flag (R169). -/
def State.overflow (s : State) : State := (s.count .receiveOverflows).setFlag .rxqOverflow

/-- An accepted frame at the receive queue (R169). On a full queue each removal or discard is crowding. -/
def State.enqueue (s : State) (f : Frame) : State :=
  let q := s.receive.queue
  if q.length < queueCapacity then
    let t := s.setQueue (q ++ [f])
    if crowdingLength ≤ q.length + 1 then t.crowding else t
  else if isSafeFrame f && q.any (fun g => !isSafeFrame g) then
    (s.setQueue (q.eraseP (fun g => !isSafeFrame g) ++ [f])).overflow.crowding
  else s.overflow.crowding

/-- An acceptance entry matches an identifier (R168). -/
def AcceptEntry.accepts (e : AcceptEntry) (id : BitVec 11) : Bool :=
  e.enabled && decide (id &&& e.mask = e.value &&& e.mask)

/-- Some enabled entry of the acceptance table matches (R168). -/
def accepted (c : Cfg) (id : BitVec 11) : Bool := c.accept.toList.any fun e => AcceptEntry.accepts e id

/-- A frame that passes the own-number check, at the acceptance table (R168). -/
def State.filterFrame (s : State) (f : Frame) : State :=
  if accepted s.cfg f.id then (s.count .accepted).enqueue f else s.count .rejected

/-- A frame from the bus, outside LOADING (R168). -/
def State.receiveFrame (s : State) (f : Frame) : State :=
  if f.station = s.startup.own then (if s.startup.station = .conflict then s else s.enterConflict)
  else s.filterFrame f

/-- FRAME_RECEIVED: in LOADING nothing is received (R168, R173). -/
def execFrameReceived (f : Frame) (s : State) : Host.Outcome State Fault Refusal :=
  if s.startup.station = .loading then finish s else finish (s.receiveFrame f)

end Sys2Proof.Machine
end

