-- ==== Sys2Proof/Machine/Requests.lean ====
section
/-! DEFINITION. Requests and answers (chapter 12) and the dispatcher's discards, and the meanings of QUERY, CLEAR_COUNTERS,
CLEAR_FLAGS, CLEAR_FILTER, RESET_LINK, RESET_PLUME, RESET_DEMANDS, RESET_ALL, LAMP_TEST, UNKNOWN_REQUEST and
FRAME_DISCARDED. -/

namespace Sys2Proof.Machine

open Sys2Proof

/-! ## What a REQUEST asks (R176, R177) -/

/-- The requests of R176, each reset scope one of its own, and a request that is unknown (R177). -/
inductive Request
  | query | clearCounters | clearFlags | clearFilter | resetLink | resetPlume | resetDemands | resetAll | lampTest
  | unknown
deriving DecidableEq, Repr

/-- What a REQUEST of this code and argument asks (R176, R177). -/
def requestOf (code argument : Nat) : Request :=
  match code with
  | 0 => if argument ≤ 13 then .query else .unknown
  | 1 => if argument ≤ 8 ∨ argument = 255 then .clearCounters else .unknown
  | 2 => .clearFlags
  | 3 => .clearFilter
  | 4 =>
    match argument with
    | 0 => .resetLink
    | 1 => .resetPlume
    | 2 => .resetDemands
    | 3 => .resetAll
    | _ => .unknown
  | 5 => .lampTest
  | _ => .unknown

/-- What a REQUEST frame asks. -/
def Frame.asks (f : Frame) : Request := requestOf f.index.val (f.byte 1)

/-- The head of the receive queue, when it is a REQUEST that asks this (log 3). -/
def State.headRequest (s : State) (r : Request) : Option Frame :=
  match s.headOf 8 with
  | none => none
  | some f => if Frame.asks f = r then some f else none

/-- The start-up controller takes the REQUEST: its target is this station, and in CONFLICT it is a RESET ALL (R177). -/
def State.takesRequest (s : State) (f : Frame) : Bool :=
  decide (f.byte 0 = s.startup.own.val) && (decide (s.startup.station ≠ .conflict) || decide (Frame.asks f = .resetAll))

/-! ## Answer frames (R174, R177) -/

/-- ANSWER status ACCEPTED (R174). -/
def statusAccepted : Nat := 1

/-- ANSWER status BUSY (R174). -/
def statusBusy : Nat := 2

/-- ANSWER status REFUSED_MOVING (R174). -/
def statusMoving : Nat := 3

/-- ANSWER status UNKNOWN (R174). -/
def statusUnknown : Nat := 4

/-- Byte 0 of an ANSWER to a REQUEST: requester, code and last mark (R174). -/
def answerHead (f : Frame) (last : Bool) : Nat := f.station.val + 8 * f.index.val + (if last then 128 else 0)

/-- A single-frame answer: frame number 0 and the last mark set (R177). Its item, value and extension bytes are 0: the
model's choice (log 47), but for the value 0 that R178 gives the ACCEPTED of an empty group. -/
def answerFrame (s : State) (f : Frame) (status : Nat) : Frame :=
  ownFrame s 9 0 (byte1 (answerHead f true) ++ byte1 0 ++ byte1 status ++ byte2 0 ++ byte2 0 ++ byte1 0)

/-- A single-frame answer queued to the ANSWER FIFO (R164, R177). In CONFLICT the answer to a RESET ALL is kept (log 18). -/
def State.answer (s : State) (f : Frame) (status : Nat) : State := s.hold .answer (freshHeld (answerFrame s f status))

/-! ## Taking a request (R177) -/

/-- The REQUEST at the head taken, or discarded without an answer or a count, by R177. -/
def State.serve (s : State) (r : Request) (act : State → Frame → State) : Host.Outcome State Fault Refusal :=
  match s.headRequest r with
  | none => finish s
  | some f => if s.takesRequest f then finish (act s.dequeue f) else finish s.dequeue

/-- A request that a moving truck refuses (R177). -/
def State.unlessMoving (s : State) (f : Frame) (act : State → Frame → State) : State :=
  if s.moving then s.answer f statusMoving else act s f

/-! ## Clears and the lamp test -/

/-- A counter's place lies in the group of the argument, or the argument names every group (R149, R176). -/
def inGroup (argument place : Nat) : Bool :=
  decide (argument = 255) ||
    decide ((groupRange argument).1 ≤ place ∧ place < (groupRange argument).1 + (groupRange argument).2)

/-- The counters after a clear of a group, or of all (R149). -/
def clearedCounters (counters : Vector CounterCell 62) (argument : Nat) : Vector CounterCell 62 :=
  tabulate fun i => if inGroup argument i.val then zeroCell else counters[i]

/-- A clear carried out (R149). -/
def State.clearGroup (s : State) (argument : Nat) : State :=
  { s with accounting := { s.accounting with counters := clearedCounters s.accounting.counters argument } }

/-- CLEAR_COUNTERS (R149). The ACCEPTED frame is queued first (R177). -/
def execClearCounters (s : State) : Host.Outcome State Fault Refusal :=
  s.serve .clearCounters fun t f => (t.answer f statusAccepted).clearGroup (f.byte 1)

/-- The latched flag of mask bit `i` cleared, when the mask names it (R161, R176). -/
def State.clearNamed (mask : Nat) (s : State) (i : Fin 7) : State :=
  if mask.testBit i.val then s.clearFlag (latchedFlags.getD i.val .lampTest) else s

/-- CLEAR_FLAGS (R161). -/
def execClearFlags (s : State) : Host.Outcome State Fault Refusal :=
  s.serve .clearFlags fun t f => (List.finRange 7).foldl (State.clearNamed (f.byte 1)) (t.answer f statusAccepted)

/-- The filter load cleared, on an INLET (R150). -/
def State.clearFilter (s : State) : State :=
  if s.startup.role = .inlet then (s.setFilter 0 0 0).evaluateFilter else s

/-- CLEAR_FILTER (R150), refused while the truck is moving (R177). -/
def execClearFilter (s : State) : Host.Outcome State Fault Refusal :=
  s.serve .clearFilter fun t f => t.unlessMoving f fun u g => (u.answer g statusAccepted).clearFilter

/-- LAMP_TEST (R162). -/
def execLampTest (s : State) : Host.Outcome State Fault Refusal :=
  s.serve .lampTest fun t f => (t.answer f statusAccepted).setFlag .lampTest

/-- UNKNOWN_REQUEST: answered UNKNOWN, and nothing is carried out (R177). -/
def execUnknownRequest (s : State) : Host.Outcome State Fault Refusal :=
  s.serve .unknown fun t f => t.answer f statusUnknown

/-! ## Resets -/

/-- The ANSWER FIFO after a RESET LINK: the frame that accepts it, when the FIFO had room for it (R173, R177). -/
def acceptedAlone (b : Boxes) (h : Held) : Boxes :=
  { emptyBoxes with answer := if b.answer.length < answerCapacity then [h] else [] }

/-- The link controller after a RESET LINK, with the routine timers kept (R173). -/
def State.linkCleared (s : State) (f : Frame) : State :=
  let h := freshHeld (answerFrame s f statusAccepted)
  let t := if s.transmit.boxes.supersedes .answer then s.count .superseded else s
  { t with
    transmit := { boxes := acceptedAlone s.transmit.boxes h, offer := none, abandoned := s.transmit.abandon }
    link := { s.link with score := 0, state := .active, withdrawal := none }
    receive := resetReceive
    stretch := { s.stretch with interval := noStretch } }

/-- A RESET LINK carried out (R173). When it removes the ACCEPTED frame of a pending RESET ALL, that reset is carried out
at once (R177). -/
def State.resetLink (s : State) (f : Frame) : State :=
  if s.transmit.boxes.holdsAccept then s.fullReset
  else (((s.linkCleared f).clearFlag .linkPassive).clearFlag .linkWithdrawn).endPeerStretch

/-- RESET_LINK (R173), refused while the truck is moving (R177). -/
def execResetLink (s : State) : Host.Outcome State Fault Refusal :=
  s.serve .resetLink fun t f => t.unlessMoving f State.resetLink

/-- The detector at a RESET PLUME, on a FORWARD (R69). -/
def State.resetDetector (s : State) : State := if s.startup.role = .forward then s.abandonSighting else s

/-- RESET_PLUME: the timeline of an INLET and the detector of a FORWARD (R69, R88), refused while the truck is moving. -/
def execResetPlume (s : State) : Host.Outcome State Fault Refusal :=
  s.serve .resetPlume fun t f =>
    t.unlessMoving f fun u g => (u.answer g statusAccepted).resetTimelineRecords.resetDetector

/-- RESET_DEMANDS (R111), refused while the truck is moving (R177). -/
def execResetDemands (s : State) : Host.Outcome State Fault Refusal :=
  s.serve .resetDemands fun t f => t.unlessMoving f fun u g => (u.answer g statusAccepted).resetDemands

/-- A RESET ALL accepted: its frame is held with the mark set, a second one leaves the mark as it was, and one that finds
no room is carried out at once (R177, R185, log 35). -/
def State.acceptResetAll (s : State) (f : Frame) : State :=
  let a := answerFrame s f statusAccepted
  if answerCapacity ≤ s.transmit.boxes.answer.length then s.fullReset
  else if s.startup.pendingReset then s.hold .answer (freshHeld a)
  else
    ({ s with startup := { s.startup with pendingReset := true } }).hold .answer
      { frame := a, offered := false, acceptsReset := true }

/-- RESET_ALL (R177). -/
def execResetAll (s : State) : Host.Outcome State Fault Refusal :=
  s.serve .resetAll fun t f => t.unlessMoving f State.acceptResetAll

/-! ## Queries: items and their packing (R179) -/

/-- One field of an item: its width and its value. -/
abbrev Field := Nat × Nat

/-- A value field; a value wider than its field saturates (R179). -/
def fld (width v : Nat) : Field := (width, min v (2 ^ width - 1))

/-- A field marked absent: its largest value when absent, and one below it at most (R179). -/
def fldAbsent (width : Nat) : Option Nat → Field
  | none => (width, 2 ^ width - 1)
  | some v => (width, min v (2 ^ width - 2))

/-- A one-bit field. -/
def fldBit (b : Bool) : Field := (1, if b then 1 else 0)

/-- Fields packed in order, the first at bit 0 (R179). -/
def pack : List Field → Nat
  | [] => 0
  | (w, v) :: fs => v + 2 ^ w * pack fs

/-- A data item: its code and its fields in packing order (R179). -/
structure Item where
  code : Nat
  fields : List Field
deriving DecidableEq, Repr

/-- Data frame `n` of an answer to `f`: the value, the extension, status bits 0–6 with bit 7 set, item bits 4–7 (R174,
R179). -/
def dataFrame (s : State) (f : Frame) (n : Nat) (last : Bool) (it : Item) : Frame :=
  let p := pack it.fields
  let item := it.code + 16 * (p / 2 ^ 47 % 16)
  let status := 128 + p / 2 ^ 40 % 128
  ownFrame s 9 n
    (byte1 (answerHead f last) ++ byte1 item ++ byte1 status ++ byte2 (p / 2 ^ 16 % 65536) ++ byte2 (p % 65536) ++
      byte1 (p / 2 ^ 32 % 256))

/-! ### The groups -/

/-- The items of the counters at `count` places from `first`, numbered from 0 (R151, R179). -/
def State.counterItems (s : State) (first count : Nat) : List Item :=
  (((s.accounting.counters.toList.drop first).take count).zipIdx).map fun x =>
    { code := x.2, fields := [fld 32 x.1.count, fldBit x.1.rollover] }

/-- Record kind codes (R179). -/
def mixKindCode : MixKind → Nat
  | .none => 0
  | .full => 1
  | .blower => 2

/-- The further items of the INLET group: filter load and computation record (R113, R179). -/
def State.inletItems (s : State) : List Item :=
  let m := s.mix
  [ { code := 8, fields := [fld 32 s.accounting.mgCount] }, { code := 9, fields := [fld 32 s.accounting.ngAccumulator] }
  , { code := 10, fields := [fld 2 (mixKindCode m.kind), fldAbsent 12 m.bo, fldAbsent 12 m.bc, fldAbsent 14 m.co2] }
  , { code := 11, fields := [fld 10 m.floor, fld 10 m.wish, fld 10 m.fresh, fld 10 m.recirc] }
  , { code := 12, fields := [fldAbsent 11 m.damper, fldAbsent 11 m.blower] } ]

/-- The fields of an entry that is not ABSENT. -/
def Presence.fields? : Presence → Option PeerInfo
  | .absent => none
  | .present i => some i
  | .silent i => some i

/-- Peer state codes (R179). -/
def presenceCode : Presence → Nat
  | .absent => 0
  | .present _ => 1
  | .silent _ => 2

/-- The two items of a peer entry (R179). -/
def peerItems (e : PeerEntry) : List Item :=
  let i := e.presence.fields?
  let num (g : PeerInfo → Nat) : Nat := (i.map g).getD 0
  [ { code := 0
      fields :=
        [ fldAbsent 16 (i.bind (·.burden)), fld 8 (num (·.intervalMs / 100)), fld 8 (num (·.summary.toNat))
        , fld 2 (presenceCode e.presence), fld 2 (num fun x => roleCode x.role)
        , fld 2 (num fun x => announcedCode x.announced), fld 4 (num (·.readings.length)) ] }
  , { code := 1
      fields :=
        [ fld 32 e.tally, fldAbsent 11 (i.bind (·.damper))
        , fldAbsent 3 ((i.bind (·.regime)).map fun r => (regimeCode r).val) ] } ]

/-- The station numbers other than the own, in ascending order. -/
def State.others (s : State) : List (Fin 8) := (List.finRange 8).filter fun n => decide (n ≠ s.startup.own)

/-- The items of the PEERS group (R179). -/
def State.peersItems (s : State) : List Item := s.others.flatMap fun n => peerItems s.peers[n]

/-- PLUME state codes (R179). -/
def holdCode : PlumeHold → Nat
  | .off => 0
  | .held => 1
  | .postHold => 2

/-- Record state codes (R179). -/
def phaseCode : PlumePhase → Nat
  | .approaching => 0
  | .armed => 1
  | .engulfed => 2

/-- The item of a plume record (R91, R179). -/
def recordItem (r : PlumeRecord) : Item :=
  { code := 2
    fields :=
      [ fld 8 r.df, fldAbsent 8 r.dt, fldAbsent 8 r.length, fld 8 r.sequence, fld 6 (r.peak / 64), fld 3 r.origin.val
      , fld 2 (phaseCode r.phase), fld 2 (speciesCode r.species), fldBit r.background, fld 5 (r.ageMs / 1000) ] }

/-- Detector state codes (R179). -/
def detectorCode : DetectorState → Nat
  | .clear => 0
  | .pending => 1
  | .opened => 2
  | .closing => 3

/-- The items of the TIMELINE records group, by role (R70, R91, R179). -/
def State.timelineItems (s : State) : List Item :=
  match s.startup.role with
  | .inlet =>
    [ { code := 0, fields := [fld 16 s.timeline.lead] }
    , { code := 1, fields := [fld 2 (holdCode s.timeline.hold), fld 15 (s.timeline.postHold.getD 0)] } ] ++
      s.timeline.records.map recordItem
  | .forward =>
    let d := s.detector
    { code := 0
      fields :=
        [ fld 16 d.dsf, fld 12 d.peak, fld 8 d.sequence, fld 2 (detectorCode d.state), fld 2 (speciesCode d.species)
        , fldBit d.travelLost ] } ::
      s.watchedSlots.map fun i =>
        { code := 1, fields := [fld 14 d.baselines[i].value, fld 4 i.val, fldBit d.baselines[i].seeded] }
  | .cabin => []

/-- The members of the safe-source set as bits: FORCE, CONFLICT, RULE, then SAFE·n (R179). -/
def State.safeMembers (s : State) : Nat :=
  bitsValue ([s.safe.force, s.safe.conflict, s.safe.rule] ++ s.others.map fun n => s.safe.remote[n].isSome)

/-- The reason bits of a SAFE·n member; 0 when it is not held (R179). -/
def memberReasons : Option SafeMember → List Bool
  | none => [false, false]
  | some m => [m.force, m.rule]

/-- The SAFE reasons field (R179). -/
def State.safeReasons (s : State) : Nat := bitsValue (s.others.flatMap fun n => memberReasons s.safe.remote[n])

/-- The item of a demand entry (R179). -/
def entryItem (e : DemandEntry) : Item :=
  { code := 1
    fields :=
      [ fld 16 e.stamp, fld 8 (e.hold.getD 0 / 1000), fld 3 e.station.val, fld 4 e.source.val
      , fld 2 (demandRegimeCode e.regime), fld 3 e.level ] }

/-- The items of the DEMANDS group; the first alone, with no members and a count of 0, on a FORWARD or CABIN (R112, R179). -/
def State.demandsItems (s : State) : List Item :=
  let regime := fldAbsent 3 (some (regimeCode s.activeRegime).val)
  if s.startup.role = .inlet then
    { code := 0, fields := [regime, fld 10 s.safeMembers, fld 5 s.demands.entries.length, fld 14 s.safeReasons] } ::
      s.demands.entries.map entryItem
  else [ { code := 0, fields := [regime, fld 10 0, fld 5 0, fld 14 0] } ]

/-- Class codes (R179). -/
def classCode : FlagClass → Nat
  | .none => 0
  | .report => 1
  | .lamp => 2

/-- The item of rule `n` (R163, R179). -/
def State.ruleItem (s : State) (n : Fin 8) : Item :=
  { code := 3
    fields :=
      [fldBit s.cfg.rules[n].enabled, fldBit s.rules[n].firing, fld 4 s.rules[n].fireTally, fld 4 s.rules[n].releaseTally] }

/-- The eleven items of the FLAGS group (R163, R179). -/
def State.flagsItems (s : State) : List Item :=
  [ { code := 0, fields := allFlags.map fun f => fldBit (s.flag f) }
  , { code := 1, fields := allFlags.map fun f => fld 2 (classCode (flagClass s.cfg f)) }
  , { code := 2, fields := [fld 8 s.summary] } ] ++ (List.finRange 8).map s.ruleItem

/-- The item of slot `i`: its value record (R15, R179). -/
def State.slotItem (s : State) (i : Fin 16) : Item :=
  let r := s.sequencer.records[i]
  let c := s.cfg.slots[i]
  { code := i.val
    fields :=
      [ fld 14 r.value, fldAbsent 12 r.burden, fld 3 (qualityCode r.quality), fldBit r.seeded, fldBit r.warmedUp
      , fld 3 (kindCode c.kind), fld 2 (locationCode c.location) ] }

/-- The items of a group, by the QUERY argument (R176, R179). -/
def State.groupItems (s : State) (argument : Nat) : List Item :=
  match argument with
  | 4 => s.counterItems 25 8 ++ s.inletItems
  | 9 => s.peersItems
  | 10 => s.timelineItems
  | 11 => s.demandsItems
  | 12 => s.flagsItems
  | 13 => (List.finRange 16).map s.slotItem
  | g => s.counterItems (groupRange g).1 (groupRange g).2

/-! ### The answer (R178) -/

/-- The most items of an answer (R178). -/
def maxItems : Nat := 16

/-- Data frames queued in item order, numbered from `n`, the last with its mark (R178). -/
def State.queueItems (s : State) (f : Frame) (n : Nat) : List Item → State
  | [] => s
  | it :: its => (s.hold .answer (freshHeld (dataFrame s f n its.isEmpty it))).queueItems f (n + 1) its

/-- A QUERY accepted: a snapshot, an ACCEPTED for a group with no items, or BUSY while a drain runs (R178). -/
def State.takeQuery (s : State) (f : Frame) : State :=
  if s.transmit.boxes.answer.isEmpty then
    match (s.groupItems (f.byte 1)).take maxItems with
    | [] => s.answer f statusAccepted
    | it :: its => s.queueItems f 0 (it :: its)
  else
    let t := s.count .superseded
    if s.transmit.boxes.answer.length < answerCapacity then t.answer f statusBusy else t

/-- QUERY (R178). -/
def execQuery (s : State) : Host.Outcome State Fault Refusal := s.serve .query State.takeQuery

/-! ## The dispatcher's discards (R172, R175) -/

/-- The kinds whose length the dispatcher checks (R175). -/
def checkedKind (k : Nat) : Bool := decide (1 ≤ k ∧ k ≤ 8)

/-- What the dispatcher discards and counts as an unknown kind: a frame too short, or of kind 0 or 10–15 (R175). -/
def countedUnknown (f : Frame) : Bool :=
  if checkedKind f.kind then decide (f.data.length < payloadLength f.kind) else decide (f.kind ≠ 9)

/-- What is discarded without a count: an ANSWER; a SAFE, DEMAND or SIGHT on a role that does not take it; a REQUEST the
start-up controller does not take (R90, R95, R172, R177, log 33). -/
def State.silentlyDiscarded (s : State) (f : Frame) : Bool :=
  decide (f.kind = 9) ||
    (decide (s.startup.role ≠ .inlet) && decide (f.kind = 1 ∨ f.kind = 3 ∨ f.kind = 5)) ||
    (decide (f.kind = 8) && !s.takesRequest f)

/-- FRAME_DISCARDED: the head of the receive queue is discarded by the dispatcher (R172, R175). -/
def execFrameDiscarded (s : State) : Host.Outcome State Fault Refusal :=
  match s.receive.queue with
  | [] => finish s
  | f :: _ =>
    if s.startup.station = .loading then finish s
    else if countedUnknown f then finish (s.dequeue.count .unknownKinds)
    else if s.silentlyDiscarded f then finish s.dequeue
    else finish s

end Sys2Proof.Machine
end

