-- ==== Sys2Proof/Machine/Dispatch.lean ====
section
/-! DEFINITION. The meaning of each command: one direct call per constructor of `Instr`. -/

namespace Sys2Proof.Machine

open Sys2Proof

/-- The effect of a command on everything but the queue. -/
def exec (i : Instr) (s : State) : Host.Outcome State Fault Refusal :=
  match i with
  | .powerOnReset => Sys2Proof.Machine.execPowerOnReset s
  | .loadingComplete image => Sys2Proof.Machine.execLoadingComplete image s
  | .joiningTimerExpiry => Sys2Proof.Machine.execJoiningTimerExpiry s
  | .dwellExpiry code order => Sys2Proof.Machine.execDwellExpiry code order s
  | .warmUpExpiry slot => Sys2Proof.Machine.execWarmUpExpiry slot s
  | .suspectTimerExpiry slot => Sys2Proof.Machine.execSuspectTimerExpiry slot s
  | .pinEdge pin level => Sys2Proof.Machine.execPinEdge pin level s
  | .debounceExpiry input => Sys2Proof.Machine.execDebounceExpiry input s
  | .odoPulse => Sys2Proof.Machine.execOdoPulse s
  | .travelTimerExpiry order => Sys2Proof.Machine.execTravelTimerExpiry order s
  | .standstillTimerExpiry => Sys2Proof.Machine.execStandstillTimerExpiry s
  | .travelTaken order => Sys2Proof.Machine.execTravelTaken order s
  | .lossTimerExpiry => Sys2Proof.Machine.execLossTimerExpiry s
  | .statusTaken => Sys2Proof.Machine.execStatusTaken s
  | .readingTaken => Sys2Proof.Machine.execReadingTaken s
  | .readingStale station kind location => Sys2Proof.Machine.execReadingStale station kind location s
  | .silenceLimitReached station => Sys2Proof.Machine.execSilenceLimitReached station s
  | .updateTimerExpiry => Sys2Proof.Machine.execUpdateTimerExpiry s
  | .maxOpenTimerExpiry => Sys2Proof.Machine.execMaxOpenTimerExpiry s
  | .sightTaken => Sys2Proof.Machine.execSightTaken s
  | .approachCapExpiry origin sequence => Sys2Proof.Machine.execApproachCapExpiry origin sequence s
  | .engulfCapExpiry origin sequence => Sys2Proof.Machine.execEngulfCapExpiry origin sequence s
  | .postHoldExpiry => Sys2Proof.Machine.execPostHoldExpiry s
  | .demandTaken => Sys2Proof.Machine.execDemandTaken s
  | .demandHoldExpiry station source => Sys2Proof.Machine.execDemandHoldExpiry station source s
  | .safeTaken => Sys2Proof.Machine.execSafeTaken s
  | .safeHoldExpiry station => Sys2Proof.Machine.execSafeHoldExpiry station s
  | .demandRepeatExpiry source => Sys2Proof.Machine.execDemandRepeatExpiry source s
  | .safeRepeatExpiry => Sys2Proof.Machine.execSafeRepeatExpiry s
  | .scrubTimerExpiry => Sys2Proof.Machine.execScrubTimerExpiry s
  | .checkTimerExpiry => Sys2Proof.Machine.execCheckTimerExpiry s
  | .intervalTimerExpiry channel => Sys2Proof.Machine.execIntervalTimerExpiry channel s
  | .settleTimerExpiry => Sys2Proof.Machine.execSettleTimerExpiry s
  | .accountingTimerExpiry => Sys2Proof.Machine.execAccountingTimerExpiry s
  | .sent => Sys2Proof.Machine.execSent s
  | .arbitrationLost => Sys2Proof.Machine.execArbitrationLost s
  | .failed => Sys2Proof.Machine.execFailed s
  | .withdrawalTimerExpiry => Sys2Proof.Machine.execWithdrawalTimerExpiry s
  | .statusTimerExpiry => Sys2Proof.Machine.execStatusTimerExpiry s
  | .readingTimerExpiry => Sys2Proof.Machine.execReadingTimerExpiry s
  | .frameReceived frame => Sys2Proof.Machine.execFrameReceived frame s
  | .guardExpiry => Sys2Proof.Machine.execGuardExpiry s
  | .hushTaken => Sys2Proof.Machine.execHushTaken s
  | .stretchEnd part => Sys2Proof.Machine.execStretchEnd part s
  | .frameDiscarded => Sys2Proof.Machine.execFrameDiscarded s
  | .query => Sys2Proof.Machine.execQuery s
  | .clearCounters => Sys2Proof.Machine.execClearCounters s
  | .clearFlags => Sys2Proof.Machine.execClearFlags s
  | .clearFilter => Sys2Proof.Machine.execClearFilter s
  | .resetLink => Sys2Proof.Machine.execResetLink s
  | .resetPlume => Sys2Proof.Machine.execResetPlume s
  | .resetDemands => Sys2Proof.Machine.execResetDemands s
  | .resetAll => Sys2Proof.Machine.execResetAll s
  | .fullResetCarriedOut => Sys2Proof.Machine.execFullResetCarriedOut s
  | .lampTest => Sys2Proof.Machine.execLampTest s
  | .unknownRequest => Sys2Proof.Machine.execUnknownRequest s

end Sys2Proof.Machine
end

