-- ==== Sys2Proof/Machine/Time.lean ====
section
/-! DEFINITION. The passing of one millisecond (log 1): running timers come nearer to their expiry, and ages grow. -/

namespace Sys2Proof.Machine

open Sys2Proof

/-- A running timer after one ms; at 0 it is due, and its expiry is a command of its own (log 2). -/
def tickTimer (t : Timer) : Timer := t.map (· - 1)

/-- The timers of a slot (R10, R12). -/
def SlotRecord.tick (r : SlotRecord) : SlotRecord := { r with warmUp := tickTimer r.warmUp, suspect := tickTimer r.suspect }

/-- Dwell, warm-up and suspect timers (R3). -/
def Sequencer.tick (q : Sequencer) : Sequencer :=
  { q with records := mapVector SlotRecord.tick q.records, dwell := tickTimer q.dwell }

/-- A debounce timer (R19). -/
def Debounced.tick (d : Debounced) : Debounced := { d with timer := tickTimer d.timer }

/-- The debounce timers (R19, R21). -/
def InputUnit.tick (u : InputUnit) : InputUnit :=
  { din := mapVector Debounced.tick u.din, force := u.force.tick, ign := u.ign.tick, rev := u.rev.tick }

/-- Travel and standstill timers (R39). -/
def Source.tick (c : Source) : Source :=
  { c with travelTimer := tickTimer c.travelTimer, standstillTimer := tickTimer c.standstillTimer }

/-- The age of a reading record (R24). -/
def Reading.tick (r : Reading) : Reading := { r with ageMs := r.ageMs + 1 }

/-- The last status time and the ages of a PRESENT entry; a SILENT entry's last status time is stopped (R23, R29). -/
def PeerEntry.tick (e : PeerEntry) : PeerEntry :=
  match e.presence with
  | .absent => e
  | .silent _ => e
  | .present i =>
    { e with presence := .present { i with
        lastStatusMs := i.lastStatusMs + 1, readings := i.readings.map Reading.tick } }

/-- Update and max-open timers (R53). -/
def Detector.tick (d : Detector) : Detector := { d with update := tickTimer d.update, maxOpen := tickTimer d.maxOpen }

/-- The age and engulf time of a record (R71). -/
def PlumeRecord.tick (r : PlumeRecord) : PlumeRecord :=
  { r with ageMs := r.ageMs + 1, engulfMs := r.engulfMs.map (· + 1) }

/-- Record times and the post-hold timer (R71, R72). -/
def Timeline.tick (t : Timeline) : Timeline :=
  { t with records := t.records.map PlumeRecord.tick, postHold := tickTimer t.postHold }

/-- The hold of an entry (R93). -/
def DemandEntry.tick (e : DemandEntry) : DemandEntry := { e with hold := tickTimer e.hold }

/-- The hold of a SAFE·n member (R101). -/
def SafeMember.tick (m : SafeMember) : SafeMember := { m with holdMs := m.holdMs - 1 }

/-- The holds of the safe-source set (R101). -/
def SafeSet.tick (q : SafeSet) : SafeSet := { q with remote := mapVector (·.map SafeMember.tick) q.remote }

/-- A repeat timer (R105, R106). -/
def Emitter.tick (e : Emitter) : Emitter := { e with timer := tickTimer e.timer }

/-- The repeat timers (R105, R106). -/
def Emitters.tick (e : Emitters) : Emitters := { demand := mapVector Emitter.tick e.demand, safe := e.safe.tick }

/-- Scrub and check timers (R108). -/
def Scrub.tick (x : Scrub) : Scrub := { x with timer := tickTimer x.timer, check := tickTimer x.check }

/-- An interval timer (R127). -/
def Channel.tick (c : Channel) : Channel := { c with timer := tickTimer c.timer }

/-- Interval and settle timers (R127, R135). -/
def RampUnit.tick (u : RampUnit) : RampUnit :=
  { u with damper := u.damper.tick, blower := u.blower.tick, settle := tickTimer u.settle }

/-- Withdrawal and routine timers (R166, R167). -/
def Link.tick (l : Link) : Link :=
  { l with withdrawal := tickTimer l.withdrawal, status := tickTimer l.status, reading := tickTimer l.reading }

/-- The guard's time (R170). -/
def Guard.tick (g : Guard) : Guard := { g with leftMs := g.leftMs - 1 }

/-- The guard of the receiving side (R170). -/
def Receive.tick (r : Receive) : Receive := { r with guard := r.guard.map Guard.tick }

/-- The time left to the end of a stretch part (R171). -/
def StretchFactor.tick (p : StretchFactor) : StretchFactor := { p with left := tickTimer p.left }

/-- Both parts of the stretch (R171). -/
def Stretch.tick (x : Stretch) : Stretch := { peer := x.peer.tick, interval := x.interval.tick }

/-- One ms passes at the station (log 1). -/
def State.tick (s : State) : State :=
  { s with
    startup := { s.startup with joining := tickTimer s.startup.joining }
    sequencer := s.sequencer.tick
    inputs := s.inputs.tick
    source := s.source.tick
    tracker := { s.tracker with loss := tickTimer s.tracker.loss }
    peers := mapVector PeerEntry.tick s.peers
    detector := s.detector.tick
    timeline := s.timeline.tick
    demands := { s.demands with entries := s.demands.entries.map DemandEntry.tick }
    safe := s.safe.tick
    emitters := s.emitters.tick
    scrub := s.scrub.tick
    ramps := s.ramps.tick
    accounting := { s.accounting with timer := tickTimer s.accounting.timer }
    link := s.link.tick
    receive := s.receive.tick
    stretch := s.stretch.tick }

end Sys2Proof.Machine
end

