-- ==== Sys2Proof/Machine/Step.lean ====
section
/-! DEFINITION. The step of the block: the command at the front of the queue, or one millisecond of idling. -/

namespace Sys2Proof.Machine

open Sys2Proof

/-- One step: the command at the front of the queue runs on the state with the queue's rest; on an empty queue one ms
passes (log 1). -/
def step (s : State) : Host.Outcome State Fault Refusal :=
  match s.pending with
  | [] => .next s.tick
  | c :: rest => exec c { s with pending := rest }

/-- The state with the command that a word spells put at the front of the queue; the table gives its rows no bits, so no
word spells one. -/
def State.withFetchWord (s : State) (nbits w : Nat) : State :=
  match Sys2Proof.decodeTableWord nbits w with
  | none => s
  | some c => { s with pending := c :: s.pending }

end Sys2Proof.Machine
end

