-- ==== Sys2Proof/Safety.lean ====
section
/-! DEFINITION. The words claims about this model use: the parts of the state, what it means that only some of them
change, and the conditions every run keeps. -/

namespace Sys2Proof.Machine

open Sys2Proof

/-! ## Parts and frames -/

/-- The parts of the state that a frame names. -/
inductive Part
  | pending | pins | station | role | straps | joining | pendingReset | cfg
  | records | sweep | inputs | source | tracker | peers | detector
  | plumes | lead | plumeHold
  | demands | safeSet | regime | emitters | scrub | mix
  | damper | blower | settle
  | counters | filter | accountingTimer | rules | flagBits | alert
  | boxes | offer | abandoned | score | linkState | withdrawal | statusTimer | readingTimer
  | queue | guard | stretch | interval
deriving DecidableEq, Repr

/-- A part is the same in two states. Mailboxes are compared by the frames they hold, without the mark that one of them
is on offer. -/
def Part.same (s t : State) : Part → Prop
  | .pending => t.pending = s.pending
  | .pins => t.pins = s.pins
  | .station => t.startup.station = s.startup.station
  | .role => t.startup.role = s.startup.role
  | .straps => t.startup.own = s.startup.own ∧ t.startup.strap = s.startup.strap
  | .joining => t.startup.joining = s.startup.joining
  | .pendingReset => t.startup.pendingReset = s.startup.pendingReset
  | .cfg => t.cfg = s.cfg
  | .records => t.sequencer.records = s.sequencer.records
  | .sweep => t.sequencer.position = s.sequencer.position ∧ t.sequencer.dwell = s.sequencer.dwell
  | .inputs => t.inputs = s.inputs
  | .source => t.source = s.source
  | .tracker => t.tracker = s.tracker
  | .peers => t.peers = s.peers
  | .detector => t.detector = s.detector
  | .plumes => t.timeline.records = s.timeline.records ∧ t.timeline.nextCreated = s.timeline.nextCreated
  | .lead => t.timeline.lead = s.timeline.lead
  | .plumeHold => t.timeline.hold = s.timeline.hold ∧ t.timeline.postHold = s.timeline.postHold
  | .demands => t.demands = s.demands
  | .safeSet => t.safe = s.safe
  | .regime => t.regime = s.regime
  | .emitters => t.emitters = s.emitters
  | .scrub => t.scrub = s.scrub
  | .mix => t.mix = s.mix
  | .damper => t.ramps.damper = s.ramps.damper
  | .blower => t.ramps.blower = s.ramps.blower
  | .settle => t.ramps.settle = s.ramps.settle ∧ t.ramps.settled = s.ramps.settled
  | .counters => t.accounting.counters = s.accounting.counters
  | .filter =>
    t.accounting.carry = s.accounting.carry ∧ t.accounting.ngAccumulator = s.accounting.ngAccumulator ∧
      t.accounting.mgCount = s.accounting.mgCount
  | .accountingTimer => t.accounting.timer = s.accounting.timer
  | .rules => t.rules = s.rules
  | .flagBits => t.flags.bits = s.flags.bits
  | .alert => t.flags.alert = s.flags.alert
  | .boxes => t.transmit.boxes.keepOffered = s.transmit.boxes.keepOffered
  | .offer => t.transmit.offer = s.transmit.offer
  | .abandoned => t.transmit.abandoned = s.transmit.abandoned
  | .score => t.link.score = s.link.score
  | .linkState => t.link.state = s.link.state
  | .withdrawal => t.link.withdrawal = s.link.withdrawal
  | .statusTimer => t.link.status = s.link.status
  | .readingTimer => t.link.reading = s.link.reading
  | .queue => t.receive.queue = s.receive.queue
  | .guard => t.receive.guard = s.receive.guard
  | .stretch => t.stretch.peer = s.stretch.peer
  | .interval => t.stretch.interval = s.stretch.interval

/-- Every part outside the list is the same in both states. -/
def Only (parts : List Part) (s t : State) : Prop := ∀ p : Part, p ∉ parts → p.same s t

/-- A counter's cell: its value and its rollover indicator (R141). -/
def State.cell (s : State) (c : Counter) : CounterCell := s.accounting.counters[c.index]

/-- What a mailbox holds, the oldest first (R164). -/
def Boxes.held (b : Boxes) : Box → List Held
  | .safe => b.safe.toList
  | .hush => b.hush.toList
  | .sight => b.sight
  | .travel => b.travel.toList
  | .demand n => b.demand[n].toList
  | .status => b.status.toList
  | .reading n => b.reading[n].toList
  | .answer => b.answer

/-- The frames a mailbox of the station holds, the oldest first (R164). -/
def State.frames (s : State) (b : Box) : List Frame := (s.transmit.boxes.held b).map (·.frame)

/-- The single flags, counters and mailboxes, which a frame can name one by one. -/
inductive Note
  | flag (f : Flag)
  | counter (c : Counter)
  | box (b : Box)
deriving DecidableEq, Repr

/-- A flag, a counter or a mailbox is the same in two states; a mailbox without the mark of the frame on offer. -/
def Note.same (s t : State) : Note → Prop
  | .flag f => t.flag f = s.flag f
  | .counter c => t.cell c = s.cell c
  | .box b => t.transmit.boxes.keepOffered.held b = s.transmit.boxes.keepOffered.held b

/-- Every flag, counter and mailbox outside the list is the same in both states. -/
def Notes (notes : List Note) (s t : State) : Prop := ∀ n : Note, n ∉ notes → n.same s t

/-- The frame of an event: of the parts only the listed ones change, of the flags, counters and mailboxes only the listed
ones, and a frame on offer stays on offer. With none on offer, the event ends with a choice (R165). -/
structure Changes (parts : List Part) (notes : List Note) (s t : State) : Prop where
  parts : Only (.offer :: .boxes :: .counters :: .flagBits :: parts) s t
  notes : Notes notes s t
  offer : ∀ f, s.transmit.offer = some f → t.transmit.offer = some f

/-- The parts that a new selection of the regime can reach. -/
abbrev selectionParts : List Part := [.regime, .mix, .damper, .blower, .settle, .alert]

/-- The active regime is the one R103 selects. -/
def RegimeSelected (t : State) : Prop :=
  t.regime =
    (if t.safe.nonempty = true ∨ t.startup.station = .joining then .safe
      else if t.tracker.ignition = false then .idle
      else match t.demands.entries with
        | [] => .auto
        | e :: _ => e.regime.regime)

/-- The targets of the active regime stand at the channels (R92, R104): the mix law's while the station is RUNNING. -/
structure TargetsHanded (t : State) : Prop where
  safe : t.regime = .safe →
    t.ramps.damper.target = t.cfg.mix.safeDamper ∧ t.ramps.blower.target = t.cfg.mix.safeBlower
  flush : t.regime = .flush → t.ramps.damper.target = freshCode t.cfg ∧ t.ramps.blower.target = t.cfg.mix.flushBlower
  scrub : t.regime = .scrub → t.ramps.damper.target = recircCode t.cfg ∧ t.ramps.blower.target = t.cfg.mix.scrubBlower
  idle : t.regime = .idle → t.ramps.damper.target = t.ramps.damper.output ∧ t.ramps.blower.target = 0
  recirc : t.regime = .recirc → t.ramps.damper.target = recircCode t.cfg ∧
    (t.startup.station = .running → t.mix.blower = some t.ramps.blower.target)
  auto : t.regime = .auto → t.startup.station = .running →
    t.mix.damper = some t.ramps.damper.target ∧ t.mix.blower = some t.ramps.blower.target

/-- What a followed TRAVEL hands on (R50, R52): its notice to the detector and the timeline, and a change of the ignition
to the demand list, in the command's order of the two (log 7). -/
def travelHanded (order : TravelOrder) (ignitionBefore : Bool) (delta : Nat) (reverse : Bool) (speed : Nat)
    (s : State) : State :=
  let notice (u : State) : State := (u.detectorTravel delta reverse).timelineTravel delta reverse speed
  let turned (u : State) : State := if s.tracker.ignition = ignitionBefore then u else u.reselect
  match order with
  | .noticeFirst => turned (notice s)
  | .ignitionFirst => notice (turned s)

/-- The event that led from `s` to `t` ends with the judgement of the PLUME state (R84). What comes before it is some `u`,
which touches the records, these parts and these notes, and not the PLUME state; `became`: in the event a record became
ARMED or ENGULFED, or was created so. -/
def PlumeJudged (parts : List Part) (notes : List Note) (became : Bool) (s t : State) : Prop :=
  ∃ u : State, Changes (.plumes :: parts) notes s u ∧ Changes [] [] (u.judgePlume became) t

/-- After a fall of the stretch factor f, a PRESENT peer whose last status time has reached its shorter limit is SILENT, and
every other entry stays (R30). -/
structure LimitsFell (s t : State) : Prop where
  silenced : ∀ (n : Fin 8) (i : PeerInfo), s.peers[n].presence = .present i → 1 < s.stretch.peer.factor →
    3 * i.intervalMs ≤ i.lastStatusMs → (∃ j, t.peers[n].presence = .silent j) ∧ t.flag .peerLost = true
  stay : ∀ n : Fin 8, (∀ i, s.peers[n].presence = .present i → s.stretch.peer.factor ≤ 1 ∨
    i.lastStatusMs < 3 * i.intervalMs) → t.peers[n] = s.peers[n]

/-! ### What a condition hands on -/

/-- A demand emitter has become HELD: its repeat timer runs and its DEMAND waits (R105). -/
structure EmitterBegun (source : Fin 16) (r : DemandRegime) (level : Nat) (t : State) : Prop where
  emitter : t.emitters.demand[source] = { held := true, timer := some (t.cfg.demandHoldS * 1000 / 3 / 100 * 100) }
  queued : ∃ f, t.frames (.demand source) = [f] ∧ f.kind = 5 ∧ f.index = source ∧ f.station = t.startup.own ∧
    f.data.length = 3 ∧ f.byte 0 = demandRegimeCode r ∧ f.byte 1 = level % 256 ∧ f.byte 2 = t.cfg.demandHoldS % 256

/-- A demand emitter has become OFF: its timer is stopped and, outside CONFLICT, a DEMAND with level 0 waits (R105). -/
structure EmitterEnded (source : Fin 16) (t : State) : Prop where
  emitter : t.emitters.demand[source] = { held := false, timer := none }
  queued : t.startup.station ≠ .conflict → ∃ f, t.frames (.demand source) = [f] ∧ f.kind = 5 ∧ f.index = source ∧
    f.station = t.startup.own ∧ f.data.length = 3 ∧ f.byte 1 = 0

/-- The safe emitter has become HELD: its repeat timer runs and a SAFE with the reasons that hold waits (R106). -/
structure SafeEmitterBegun (t : State) : Prop where
  emitter : t.emitters.safe = { held := true, timer := some 1000 }
  queued : ∃ f, t.frames .safe = [f] ∧ f.kind = 1 ∧ f.station = t.startup.own ∧ f.data.length = 2 ∧
    (f.byte 0).testBit 0 = t.forceRequest ∧ (f.byte 0).testBit 1 = t.ruleSafe ∧ f.byte 1 = t.cfg.safeHoldS % 256

/-- The safe emitter has become OFF: its timer is stopped and a SAFE with hold 0 waits (R106). -/
structure SafeEmitterEnded (t : State) : Prop where
  emitter : t.emitters.safe = { held := false, timer := none }
  queued : ∃ f, t.frames .safe = [f] ∧ f.kind = 1 ∧ f.station = t.startup.own ∧ f.data.length = 2 ∧ f.byte 1 = 0

/-- A local entry has been raised: an entry of its key stays; another is inserted, on a full list in place of the message
entry of the lowest level, the newest of it, and each insertion and eviction is counted (R94, R99). -/
structure LocalRaised (source : Fin 16) (r : DemandRegime) (level : Nat) (s t : State) : Prop where
  again : (∃ e ∈ s.demands.entries, e.station = s.startup.own ∧ e.source = source) → t.demands = s.demands
  room : (∀ e ∈ s.demands.entries, ¬ (e.station = s.startup.own ∧ e.source = source)) →
    s.demands.entries.length < 16 →
    t.demands = s.demands.insert
      { station := s.startup.own, source := source, regime := r, level := level, hold := none, stamp := 0 } ∧
    t.cell .raised = (s.cell .raised).add 1 ∧ t.cell .demandEvicted = s.cell .demandEvicted
  full : (∀ e ∈ s.demands.entries, ¬ (e.station = s.startup.own ∧ e.source = source)) →
    16 ≤ s.demands.entries.length → ∀ v ∈ s.demands.entries, v.hold.isSome = true →
    (∀ w ∈ s.demands.entries, w.hold.isSome = true →
      w = v ∨ v.level < w.level ∨ (v.level = w.level ∧ w.stamp < v.stamp)) →
    t.demands = DemandList.insert
      { s.demands with entries := s.demands.entries.filter fun x => ¬ (x.station = v.station ∧ x.source = v.source) }
      { station := s.startup.own, source := source, regime := r, level := level, hold := none, stamp := 0 } ∧
    t.cell .raised = (s.cell .raised).add 1 ∧ t.cell .demandEvicted = (s.cell .demandEvicted).add 1

/-- A condition with a demand source has begun (`holds`) or ended, and was handed on: on an INLET as its local entry, with
the regime selected again and a different one's targets handed on (R99, R103, R104); elsewhere as the condition of its
emitter (R105). -/
structure ConditionHanded (source : Fin 16) (r : DemandRegime) (level : Nat) (holds : Bool) (s t : State) : Prop where
  raised : s.startup.role = .inlet → s.startup.station ≠ .loading → holds = true → LocalRaised source r level s t
  withdrawn : s.startup.role = .inlet → s.startup.station ≠ .loading → holds = false →
    t.demands = { s.demands with
      entries := s.demands.entries.filter fun e => ¬ (e.station = s.startup.own ∧ e.source = source) } ∧
    t.cell .raised = s.cell .raised ∧ t.cell .demandEvicted = s.cell .demandEvicted
  selected : s.startup.role = .inlet → s.startup.station ≠ .loading →
    RegimeSelected t ∧ (t.regime ≠ s.regime → TargetsHanded t)
  inlet : s.startup.role = .inlet → t.emitters = s.emitters ∧ t.frames (.demand source) = s.frames (.demand source)
  begins : s.startup.role ≠ .inlet → holds = true → s.startup.station = .running →
    s.emitters.demand[source].held = false → EmitterBegun source r level t
  ends : s.startup.role ≠ .inlet → holds = false → s.emitters.demand[source].held = true → EmitterEnded source t
  stays : s.startup.role ≠ .inlet →
    (holds = true ∧ (s.startup.station ≠ .running ∨ s.emitters.demand[source].held = true)) ∨
      (holds = false ∧ s.emitters.demand[source].held = false) →
    t.emitters = s.emitters ∧ t.frames (.demand source) = s.frames (.demand source)
  others : (∀ m : Fin 16, m ≠ source → t.emitters.demand[m] = s.emitters.demand[m]) ∧ t.emitters.safe = s.emitters.safe
  elsewhere : s.startup.role ≠ .inlet → t.demands = s.demands ∧ t.regime = s.regime ∧ t.ramps = s.ramps

/-- A change of the force request or of the rule safe condition was handed on: on an INLET the safe-source set becomes `q`,
and its passage between empty and non-empty is handed on at once (R101, R102); elsewhere it begins or ends a reason of the
safe emitter (R106). -/
structure SafeReasonHanded (q : SafeSet) (s t : State) : Prop where
  set : s.startup.role = .inlet → s.startup.station ≠ .loading → t.safe = q
  entered : s.startup.role = .inlet → s.startup.station ≠ .loading → s.safe.nonempty = false → q.nonempty = true →
    t.flag .safeActive = true ∧ t.regime = .safe ∧ t.ramps.damper.target = s.cfg.mix.safeDamper ∧
      t.ramps.blower.target = s.cfg.mix.safeBlower
  left : s.startup.role = .inlet → s.startup.station ≠ .loading → s.safe.nonempty = true → q.nonempty = false →
    t.flag .safeActive = false ∧ RegimeSelected t ∧ TargetsHanded t
  inside : s.startup.role = .inlet → s.safe.nonempty = q.nonempty →
    t.flag .safeActive = s.flag .safeActive ∧ t.regime = s.regime ∧ t.ramps = s.ramps ∧ t.mix = s.mix
  inlet : s.startup.role = .inlet → t.emitters = s.emitters ∧ t.frames .safe = s.frames .safe
  begins : s.startup.role ≠ .inlet → s.startup.station = .running → s.emitters.safe.held = false →
    (t.forceRequest = true ∨ t.ruleSafe = true) → SafeEmitterBegun t
  ends : s.startup.role ≠ .inlet → s.startup.station = .running → s.emitters.safe.held = true →
    t.forceRequest = false → t.ruleSafe = false → SafeEmitterEnded t
  stays : s.startup.role ≠ .inlet →
    s.startup.station ≠ .running ∨ (s.emitters.safe.held = true ∧ (t.forceRequest = true ∨ t.ruleSafe = true)) ∨
      (s.emitters.safe.held = false ∧ t.forceRequest = false ∧ t.ruleSafe = false) →
    t.emitters = s.emitters ∧ t.frames .safe = s.frames .safe
  others : t.emitters.demand = s.emitters.demand ∧ t.demands = s.demands
  elsewhere : s.startup.role ≠ .inlet → t.safe = s.safe ∧ t.regime = s.regime ∧ t.ramps = s.ramps

/-! ### The fields of the configuration image -/

/-- What validation says of one field of an image (R180): when it is in range, what it gives then, and what otherwise. -/
structure FieldClaim where
  inRange : Prop
  taken : Prop
  corrected : Prop

/-- A number with a range: out of range it is clamped (R180). -/
def FieldClaim.number (lo hi raw value : Nat) : FieldClaim :=
  { inRange := lo ≤ raw ∧ raw ≤ hi, taken := value = raw, corrected := value = max lo (min hi raw) }

/-- A signed number with a range (R180). -/
def FieldClaim.signed (lo hi raw value : Int) : FieldClaim :=
  { inRange := lo ≤ raw ∧ raw ≤ hi, taken := value = raw, corrected := value = max lo (min hi raw) }

/-- A field with listed values: another value gives the factory default (R180). -/
def FieldClaim.listed {α : Type} (code : Option α) (value default : α) : FieldClaim :=
  { inRange := code.isSome = true, taken := code = some value, corrected := value = default }

/-- A number that is read while a condition holds. -/
def FieldClaim.numberIf (read : Prop) (lo hi raw value : Nat) : FieldClaim :=
  { inRange := read → lo ≤ raw ∧ raw ≤ hi, taken := read → value = raw, corrected := value = max lo (min hi raw) }

/-- The fields of slot `i` (R1, R181). -/
def slotFields (img : List Byte) (role : Role) (c : Cfg) (i : Fin 16) : List FieldClaim :=
  let at_ := 32 + 16 * i.val
  let x := c.slots[i]
  let d := defaultSlot role i
  [ .listed (channelOfCode (byteAt img at_)) x.channel d.channel, .listed (kindOfCode (byteAt img (at_ + 1))) x.kind d.kind
  , .listed (locationOfCode (byteAt img (at_ + 2))) x.location d.location
  , .signed (-512) 511 (signedAt img (at_ + 3)) x.gain, .signed (-256) 255 (signedAt img (at_ + 5)) x.offset
  , .number 1 10000 (fieldAt img (at_ + 7) 2) x.fullScale, .number 0 6 (byteAt img (at_ + 9)) x.shift
  , .number 1 10000 (fieldAt img (at_ + 10) 2) x.limit, .listed (dwellOfCode (byteAt img (at_ + 12))) x.dwell d.dwell
  , .number 0 600 (fieldAt img (at_ + 13) 2) x.warmUpS ]

/-- The fields of discrete input `i` (R18, R181). -/
def inputFields (img : List Byte) (c : Cfg) (i : Fin 4) : List FieldClaim :=
  let at_ := 288 + 4 * i.val
  [ .listed (functionOfCode (byteAt img at_)) c.inputs[i].function .none
  , .listed (polarityOfCode (byteAt img (at_ + 1))) c.inputs[i].polarity (Config.defaultPolarity i)
  , .number 10 250 (fieldAt img (at_ + 2) 2) c.inputs[i].debounceMs ]

/-- The fields of rule `n` (R152, R181): the choices, each one listed or the rule is disabled, and then the numbers, the
level of a DEMAND among them. -/
def ruleFields (img : List Byte) (c : Cfg) (n : Fin 8) : List FieldClaim :=
  let at_ := 384 + 8 * n.val
  let x := c.rules[n]
  let a := operandOf (byteAt img (at_ + 1) % 8) (byteAt img (at_ + 2))
  let rel := relationOfCode (byteAt img at_ / 2 % 8)
  let regime := demandRegimeOfCode (byteAt img (at_ + 1) / 8 % 4)
  let act := byteAt img at_ / 32 % 4
  let read : Prop := a.isSome = true ∧ (comparandOf img at_).isSome = true ∧ rel.isSome = true ∧
    (act = 0 ∨ (act = 1 ∧ regime.isSome = true) ∨ act = 2)
  [ { inRange := read
      taken := x.enabled = bitAt img at_ 0 ∧ a = some x.operandA ∧ comparandOf img at_ = some x.comparand ∧
        rel = some x.relation ∧ (act = 0 → x.action = .none) ∧ (act = 2 → x.action = .safe) ∧
        ∀ r, act = 1 → regime = some r → ∃ level, x.action = .demand r level
      corrected := x = disabledRule }
  , .numberIf read 0 1000 (fieldAt img (at_ + 5) 2) x.hysteresis
  , .numberIf read 1 15 (byteAt img (at_ + 7) % 16) x.fireCount
  , .numberIf read 1 15 (byteAt img (at_ + 7) / 16) x.releaseCount
  , .numberIf (read ∧ act = 1) 1 7 (byteAt img (at_ + 1) / 32)
      (match x.action with
        | .demand _ level => level
        | .none => 0
        | .safe => 0) ]

/-- The fields of the detector and the timeline (R53, R72, R181). -/
def plumeFields (img : List Byte) (c : Cfg) : List FieldClaim :=
  let d := c.detector
  let t := c.timeline
  let mask : Species := ⟨bitAt img 318 0, bitAt img 318 1⟩
  [ .number 4 10 (byteAt img 304) d.shift, .number 50 2000 (fieldAt img 305 2) d.openThreshold
  , .number 25 (d.openThreshold - 1) (fieldAt img 307 2) d.closeThreshold, .number 10 120 (byteAt img 309) d.maxOpenS
  , { inRange := Species.nonempty mask = true, taken := t.mask = mask, corrected := t.mask = ⟨true, true⟩ }
  , .number 0 100 (byteAt img 319) t.leadMargin, .number 0 200 (byteAt img 320) t.tailMargin
  , .number 10 200 (byteAt img 321) t.reverseDrop, .number 2 60 (byteAt img 322) t.approachCapS
  , .number 10 300 (fieldAt img 323 2) t.engulfCapS, .number 1 7 (byteAt img 325) t.plumeLevel
  , .number 0 20 (byteAt img 326) t.postHoldS ]

/-- The fields of the ramps and the mix law (R92, R113, R114, R127, R181). -/
def mixFields (img : List Byte) (c : Cfg) : List FieldClaim :=
  let m := c.mix
  let point (k : Nat) : Breakpoint := ⟨fieldAt img (346 + 4 * k) 2, fieldAt img (348 + 4 * k) 2⟩
  let table : BreakTable := ⟨point 0, point 1, point 2, point 3, point 4⟩
  [ .listed (rampModeOfCode (byteAt img 327)) c.damper.mode .linear, .number 1 255 (byteAt img 328) c.damper.step
  , .number 5 200 (byteAt img 329) c.damper.intervalMs, .listed (rampModeOfCode (byteAt img 330)) c.blower.mode .linear
  , .number 1 255 (byteAt img 331) c.blower.step, .number 5 200 (byteAt img 332) c.blower.intervalMs
  , .number 0 1000 (fieldAt img 336 2) m.fallbackWish, .number 0 1000 (fieldAt img 338 2) m.fallbackFloor
  , .number 400 3000 (fieldAt img 340 2) m.co2Low, .number (m.co2Low + 1) 5000 (fieldAt img 342 2) m.co2High
  , .number 100 2000 (fieldAt img 344 2) m.band
  , { inRange := BreakTable.valid table = true, taken := m.table = table, corrected := m.table = defaultTable }
  , .number 0 1023 (fieldAt img 366 2) m.blowerBase, .number 0 2000 (fieldAt img 368 2) m.blowerGain
  , .number 0 1023 (fieldAt img 370 2) m.blowerMin, .number m.blowerMin 1023 (fieldAt img 372 2) m.blowerMax
  , .number 0 1023 (fieldAt img 374 2) m.flushBlower, .number 0 1023 (fieldAt img 376 2) m.scrubBlower
  , .number 0 1023 (fieldAt img 378 2) m.safeDamper, .number 0 1023 (fieldAt img 380 2) m.safeBlower ]

/-- The fields of the image's head (R181). -/
def headFields (img : List Byte) (c : Cfg) : List FieldClaim :=
  [ .number 1 30 (byteAt img 6) c.faultTimeS
  , { inRange := 5 ≤ byteAt img 7 ∧ byteAt img 7 ≤ 100, taken := c.staleTimeMs = byteAt img 7 * 100
      corrected := c.staleTimeMs = max 5 (min 100 (byteAt img 7)) * 100 }
  , .number 2 60 (byteAt img 8) c.statusInterval, .number 1 60 (byteAt img 9) c.readingInterval
  , .number 1 4000 (fieldAt img 10 2) c.pulseScale, .number 3 30 (byteAt img 12) c.demandHoldS
  , .number 1 30 (byteAt img 13) c.safeHoldS, .number 1 7 (byteAt img 14) c.driverLevel
  , .number 1 7 (byteAt img 15) c.scrubLevel, .number 10 300 (fieldAt img 16 2) c.scrubTimeS
  , .number 50 2000 (fieldAt img 18 2) c.targetBurden
  , { inRange := byteAt img 20 ≤ 16
      taken := (byteAt img 20 < 16 → ∃ i : Fin 16, i.val = byteAt img 20 ∧ c.feedbackSlot = some i) ∧
        (byteAt img 20 = 16 → c.feedbackSlot = none)
      corrected := c.feedbackSlot = none }
  , .number 5 200 (fieldAt img 21 2) c.stallTolerance, .number 10 500 (fieldAt img 23 2) c.fullFlow
  , .number 0 1000 (fieldAt img 25 2) c.efficiency, .number 1000 100000 (fieldAt img 27 4) c.capacityMg ]

/-- Every field of a valid image that validation can correct, in a configuration of a role (R180, R181). -/
def imageFields (img : List Byte) (role : Role) (c : Cfg) : List FieldClaim :=
  headFields img c ++ (List.finRange 16).flatMap (slotFields img role c) ++
    (List.finRange 4).flatMap (inputFields img c) ++ plumeFields img c ++ mixFields img c ++
    (List.finRange 8).flatMap (ruleFields img c) ++
    (List.finRange 25).map fun i =>
      .listed (classOfCode (byteAt img (496 + i.val / 4) / 4 ^ (i.val % 4) % 4)) c.classes[i] (defaultClass i)

/-- The fields of a valid image that have no range are taken as they stand (R181). -/
structure PlainFieldsTaken (img : List Byte) (c : Cfg) : Prop where
  travelSource : c.travelSource = bitAt img 4 0
  safeJump : c.safeJump = bitAt img 4 1
  startSlot : c.startSlot.val = byteAt img 5 % 16
  stopSlot : c.stopSlot.val = byteAt img 5 / 16
  publish : ∀ i : Fin 16, c.slots[i].publish = bitAt img (47 + 16 * i.val) 0
  railCheck : ∀ i : Fin 16, c.slots[i].railCheck = bitAt img (47 + 16 * i.val) 1
  plumeWatch : ∀ i : Fin 16, c.slots[i].plumeWatch = bitAt img (47 + 16 * i.val) 2
  geometry : ∀ n : Fin 8, c.timeline.geometry[n] =
    if byteAt img (310 + n.val) = 255 then none else some (byteAt img (310 + n.val))
  acceptEnabled : ∀ n : Fin 16, c.accept[n].enabled = bitAt img (448 + 3 * n.val) 7
  acceptValue : ∀ n : Fin 16, c.accept[n].value.toNat =
    byteAt img (448 + 3 * n.val) % 8 * 256 + byteAt img (449 + 3 * n.val)
  acceptMask : ∀ n : Fin 16, c.accept[n].mask.toNat =
    byteAt img (448 + 3 * n.val) / 8 % 8 * 256 + byteAt img (450 + 3 * n.val)

/-- A power-on reset has happened to `s`, but for the frames whose outcomes are still to come (log 14). -/
structure ResetState (s t : State) : Prop where
  parts : Only [.abandoned] (State.afterReset s.pins s.pending) t
  notes : Notes [] (State.afterReset s.pins s.pending) t

/-! ### What each block touches of the flags, counters and mailboxes -/

/-- What queuing content to a mailbox touches. -/
abbrev postNotes (box : Box) : List Note := [.box box, .counter .superseded, .flag .counterRollover]

/-- What the ramp channels touch. -/
abbrev rampNotes : List Note := [.counter .damperTravel, .flag .stall, .flag .counterRollover]

/-- What the safe-source set touches. -/
abbrev safeNotes : List Note := .flag .safeActive :: rampNotes

/-- What taking a local entry in touches. -/
abbrev entryNotes : List Note := [.counter .raised, .counter .demandEvicted, .flag .counterRollover]

/-- What a DEMAND taken by the list touches, before the regime is selected again. -/
abbrev messageNotes : List Note :=
  .counter .refused :: .counter .refreshed :: .counter .discarded :: .flag .demandOverflow :: entryNotes

/-- What a local entry touches, with the regime selected again. -/
abbrev listNotes : List Note := entryNotes ++ rampNotes

/-- What the purge of a peer touches. -/
abbrev purgeNotes : List Note := .counter .purged :: safeNotes

/-- What a RESET DEMANDS touches. -/
abbrev resetNotes : List Note := entryNotes ++ safeNotes

/-- What a condition with a demand source touches, whatever the role. -/
abbrev conditionNotes (n : Fin 16) : List Note := postNotes (.demand n) ++ listNotes

/-- What a change of the force request or of the rule safe condition touches. -/
abbrev forceNotes : List Note := postNotes .safe ++ safeNotes

/-- What the door scrub touches. -/
abbrev scrubNotes : List Note := .counter .scrubsStarted :: postNotes (.demand 1)

/-- What the PLUME state touches. -/
abbrev holdNotes : List Note := .counter .plumeClosures :: listNotes

/-- What a SIGHT taken by the timeline touches. -/
abbrev sightNotes : List Note :=
  .counter .created :: .counter .duplicates :: .counter .ignored :: .counter .evicted :: .counter .dropped ::
    .flag .timelineOverflow :: holdNotes

/-- What a travel notice touches. -/
abbrev travelNotes : List Note := .counter .reverseDropped :: holdNotes

/-- What a TRAVEL taken by the tracker touches. -/
abbrev trackerNotes : List Note :=
  .counter .discontinuities :: .counter .travelIgnored :: .flag .travelLost :: .flag .travelDiscontinuity :: travelNotes

/-- What the detector touches at a sweep end. -/
abbrev detectorNotes : List Note := .counter .sightingsOpened :: postNotes .sight

/-- What a STATUS taken by the peer table touches. -/
abbrev statusNotes : List Note := .counter .unknownKinds :: purgeNotes

/-- What a SILENT transition touches. -/
abbrev silentNotes : List Note := .flag .peerLost :: purgeNotes

/-- The flags and mailboxes of the rules. -/
abbrev ruleOutputs : List Note :=
  (List.finRange 8).map (fun n => .flag (.rule n)) ++ (List.finRange 8).map fun n => .box (.demand (ruleSource n))

/-- What the rule table touches. -/
abbrev ruleNotes : List Note := ruleOutputs ++ (forceNotes ++ listNotes)

/-- What a sweep end touches. -/
abbrev sweepEndNotes : List Note := detectorNotes ++ ruleNotes

/-- What a change of the debounced levels touches. -/
abbrev levelNotes : List Note :=
  scrubNotes ++ (conditionNotes 2 ++ (conditionNotes 3 ++ forceNotes))

/-- What a second of a CABIN touches. -/
abbrev cabinNotes : List Note :=
  (List.finRange 6).flatMap (fun b => [.counter (.bin .pm b), .counter (.bin .no2 b), .counter (.bin .co2 b)]) ++
    [.counter (.dose .pm), .counter (.dose .no2), .counter (.dose .co2), .counter .doorOpenSeconds,
      .flag .counterRollover]

/-- What a SENT counts. -/
abbrev sentNotes : List Note := [.counter .framesSent, .counter .hushSent, .flag .counterRollover]

/-- What crowding touches. -/
abbrev crowdNotes : List Note := postNotes .hush

/-- What an accepted frame touches at the receive queue. -/
abbrev queueNotes : List Note := .counter .receiveOverflows :: .flag .rxqOverflow :: crowdNotes

/-- What a frame that passes the own-number check touches. -/
abbrev frameNotes : List Note := .counter .accepted :: .counter .rejected :: queueNotes

/-- What an answer touches. -/
abbrev answerNotes : List Note := postNotes .answer

/-- What the entry to RUNNING touches on a FORWARD or CABIN. -/
abbrev runNotes : List Note := ((List.finRange 16).map fun n => .box (.demand n)) ++ postNotes .safe

/-- The frame at the head of the receive queue, with the rest behind it, is one that the dispatcher delivers as this
kind: the station is not LOADING, and the frame is long enough (R172, R175, R180). -/
structure Delivered (s : State) (kind : Nat) (f : Frame) (rest : List Frame) : Prop where
  queue : s.receive.queue = f :: rest
  station : s.startup.station ≠ .loading
  isKind : f.kind = kind
  long : payloadLength kind ≤ f.data.length

/-- The frame at the head of the receive queue is a REQUEST of this code for this station, in JOINING or RUNNING (R176,
R177). -/
structure Asked (s : State) (code : Nat) (f : Frame) (rest : List Frame) : Prop where
  delivered : Delivered s 8 f rest
  code : f.index.val = code
  target : f.byte 0 = s.startup.own.val
  station : s.startup.station ≠ .conflict

/-- One answer of this status to `f` is queued behind what the ANSWER FIFO holds: frame number 0, the last mark set, the
requester and the code of `f`. On a full FIFO it is discarded and counted as superseded (R164, R177). -/
structure Answered (s t : State) (f : Frame) (status : Nat) : Prop where
  room : (s.frames .answer).length < 16 → ∃ a : Frame, t.frames .answer = s.frames .answer ++ [a] ∧
    a.kind = 9 ∧ a.index = 0 ∧ a.station = s.startup.own ∧ a.data.length = 8 ∧
    a.byte 0 = f.station.val + 8 * f.index.val + 128 ∧ a.byte 2 = status
  full : 16 ≤ (s.frames .answer).length → t.frames .answer = s.frames .answer ∧
    t.cell .superseded = (s.cell .superseded).add 1

/-! ### The data items of an answer (R179) -/

/-- A field of a width with a value, at most its largest. -/
def plainField (width v : Nat) : Nat × Nat := (width, if v < 2 ^ width then v else 2 ^ width - 1)

/-- A field that can be absent: its largest value then, and otherwise the value, at most one below that. -/
def absentField (width : Nat) : Option Nat → Nat × Nat
  | none => (width, 2 ^ width - 1)
  | some v => (width, if v < 2 ^ width - 1 then v else 2 ^ width - 2)

/-- A field of one bit. -/
def bitField (b : Bool) : Nat × Nat := (1, if b then 1 else 0)

/-- One item: its code and its fields, width and value of each, in packing order. -/
abbrev ItemRow := Nat × List (Nat × Nat)

/-- The 51 packed bits of a data item: the value field, the extension byte, status bits 0–6, item bits 4–7. -/
def itemBits (f : Frame) : Nat :=
  f.word 3 * 65536 + f.word 5 + 2 ^ 32 * f.byte 7 + 2 ^ 40 * (f.byte 2 % 128) + 2 ^ 47 * (f.byte 1 / 16)

/-- Packed bits hold these fields from bit 0 on, and nothing above them. -/
def HoldsFields : Nat → List (Nat × Nat) → Prop
  | bits, [] => bits = 0
  | bits, (w, v) :: rest => bits % 2 ^ w = v ∧ HoldsFields (bits / 2 ^ w) rest

/-- An ANSWER frame is the data item of a row. -/
structure CarriesItem (f : Frame) (row : ItemRow) : Prop where
  code : f.byte 1 % 16 = row.1
  isData : 128 ≤ f.byte 2
  fields : HoldsFields (itemBits f) row.2

/-- The counters of an exposure group, in their order (R141). -/
def exposureCounters (g : Exposure) : List Counter :=
  [.bin g 0, .bin g 1, .bin g 2, .bin g 3, .bin g 4, .bin g 5, .dose g]

/-- The counters of the groups, by the argument of a QUERY, in the order of R141. -/
def groupCounters : Nat → List Counter
  | 0 => exposureCounters .pm
  | 1 => exposureCounters .no2
  | 2 => exposureCounters .co2
  | 3 => [.doorOpenings, .doorOpenSeconds, .scrubsStarted, .scrubsEndedEarly]
  | 4 => [.regimeSeconds .auto, .regimeSeconds .recirc, .regimeSeconds .flush, .regimeSeconds .scrub,
      .regimeSeconds .safe, .regimeSeconds .idle, .damperTravel, .plumeClosures]
  | 5 => [.sightingsOpened, .forcedCloses, .updatesQueued]
  | 6 => [.created, .duplicates, .ignored, .evicted, .dropped, .capped, .reverseDropped]
  | 7 => [.raised, .refreshed, .refused, .demandEvicted, .expired, .purged, .discarded]
  | 8 => [.framesSent, .sendFailures, .superseded, .withdrawals, .accepted, .rejected, .receiveOverflows,
      .unknownKinds, .hushSent, .hushHeard, .travelIgnored, .discontinuities]
  | _ => []

/-- The rows of counters, numbered from 0. -/
def counterRows (s : State) (cs : List Counter) : List ItemRow :=
  cs.zipIdx.map fun x => (x.2, [plainField 32 (s.cell x.1).count, bitField (s.cell x.1).rollover])

/-- The rows an INLET adds to its counters: filter load and computation record. -/
def loadRows (s : State) : List ItemRow :=
  let m := s.mix
  let kind := match m.kind with
    | .none => 0
    | .full => 1
    | .blower => 2
  [ (8, [plainField 32 s.accounting.mgCount]), (9, [plainField 32 s.accounting.ngAccumulator])
  , (10, [plainField 2 kind, absentField 12 m.bo, absentField 12 m.bc, absentField 14 m.co2])
  , (11, [plainField 10 m.floor, plainField 10 m.wish, plainField 10 m.fresh, plainField 10 m.recirc])
  , (12, [absentField 11 m.damper, absentField 11 m.blower]) ]

/-- The two rows of a peer entry that holds fields, with its state code. -/
def heardRows (state tally : Nat) (i : PeerInfo) : List ItemRow :=
  [ (0, [absentField 16 i.burden, plainField 8 (i.intervalMs / 100), plainField 8 i.summary.toNat, plainField 2 state,
      plainField 2 (roleCode i.role), plainField 2 (announcedCode i.announced), plainField 4 i.readings.length])
  , (1, [plainField 32 tally, absentField 11 i.damper,
      absentField 3 (i.regime.map fun r => (regimeCode r).val)]) ]

/-- The two rows of a peer entry. -/
def peerRows (e : PeerEntry) : List ItemRow :=
  match e.presence with
  | .absent =>
    [ (0, [absentField 16 none, plainField 8 0, plainField 8 0, plainField 2 0, plainField 2 0, plainField 2 0,
        plainField 4 0])
    , (1, [plainField 32 e.tally, absentField 11 none, absentField 3 none]) ]
  | .present i => heardRows 1 e.tally i
  | .silent i => heardRows 2 e.tally i

/-- A species mask as a field. -/
def maskField (m : Species) : Nat × Nat := (2, (if m.pm then 1 else 0) + if m.no2 then 2 else 0)

/-- The row of a plume record. -/
def plumeRow (r : PlumeRecord) : ItemRow :=
  let state := match r.phase with
    | .approaching => 0
    | .armed => 1
    | .engulfed => 2
  (2, [plainField 8 r.df, absentField 8 r.dt, absentField 8 r.length, plainField 8 r.sequence, plainField 6 (r.peak / 64),
    plainField 3 r.origin.val, plainField 2 state, maskField r.species, bitField r.background,
    plainField 5 (r.ageMs / 1000)])

/-- The rows of an INLET's timeline. -/
def timelineRows (s : State) : List ItemRow :=
  let hold := match s.timeline.hold with
    | .off => 0
    | .held => 1
    | .postHold => 2
  (0, [plainField 16 s.timeline.lead]) :: (1, [plainField 2 hold, plainField 15 (s.timeline.postHold.getD 0)]) ::
    s.timeline.records.map plumeRow

/-- The rows of a FORWARD's detector: the sighting, and the baseline of each watched slot. -/
def detectorRows (s : State) : List ItemRow :=
  let d := s.detector
  let state := match d.state with
    | .clear => 0
    | .pending => 1
    | .opened => 2
    | .closing => 3
  (0, [plainField 16 d.dsf, plainField 12 d.peak, plainField 8 d.sequence, plainField 2 state, maskField d.species,
    bitField d.travelLost]) ::
    ((List.finRange 16).filter fun i => inSweep s.cfg i && s.cfg.slots[i].plumeWatch &&
      decide (s.cfg.slots[i].kind = .pm ∨ s.cfg.slots[i].kind = .no2)).map fun i =>
        (1, [plainField 14 d.baselines[i].value, plainField 4 i.val, bitField d.baselines[i].seeded])

/-- The rows of the demand list and the safe-source set; on another role than INLET the regime alone. -/
def demandRows (s : State) : List ItemRow :=
  let regime := plainField 3 (regimeCode s.activeRegime).val
  let others := (List.finRange 8).filter fun n => decide (n ≠ s.startup.own)
  let members := bitsValue (s.safe.force :: s.safe.conflict :: s.safe.rule :: others.map fun n => s.safe.remote[n].isSome)
  let reasons := bitsValue (others.flatMap fun n =>
    match s.safe.remote[n] with
    | none => [false, false]
    | some m => [m.force, m.rule])
  if s.startup.role = .inlet then
    (0, [regime, plainField 10 members, plainField 5 s.demands.entries.length, plainField 14 reasons]) ::
      s.demands.entries.map fun e =>
        (1, [plainField 16 e.stamp, plainField 8 (e.hold.getD 0 / 1000), plainField 3 e.station.val,
          plainField 4 e.source.val, plainField 2 (demandRegimeCode e.regime), plainField 3 e.level])
  else [(0, [regime, plainField 10 0, plainField 5 0, plainField 14 0])]

/-- The eleven rows of the FLAGS group. -/
def flagRows (s : State) : List ItemRow :=
  let classOf (f : Flag) : Nat := match flagClass s.cfg f with
    | .none => 0
    | .report => 1
    | .lamp => 2
  [ (0, allFlags.map fun f => bitField (s.flag f)), (1, allFlags.map fun f => plainField 2 (classOf f))
  , (2, [plainField 8 s.summary]) ] ++
    (List.finRange 8).map fun n =>
      (3, [bitField s.cfg.rules[n].enabled, bitField s.rules[n].firing, plainField 4 s.rules[n].fireTally,
        plainField 4 s.rules[n].releaseTally])

/-- The sixteen rows of the SLOTS group. -/
def slotRows (s : State) : List ItemRow :=
  (List.finRange 16).map fun i =>
    let r := s.sequencer.records[i]
    (i.val, [plainField 14 r.value, absentField 12 r.burden, plainField 3 (qualityCode r.quality), bitField r.seeded,
      bitField r.warmedUp, plainField 3 (kindCode s.cfg.slots[i].kind), plainField 2 (locationCode s.cfg.slots[i].location)])

/-- The items of every group, by the argument of a QUERY (R176, R179). -/
def answerRows (s : State) : Nat → List ItemRow
  | 4 => counterRows s (groupCounters 4) ++ loadRows s
  | 9 => ((List.finRange 8).filter fun n => decide (n ≠ s.startup.own)).flatMap fun n => peerRows s.peers[n]
  | 10 =>
    match s.startup.role with
    | .inlet => timelineRows s
    | .forward => detectorRows s
    | .cabin => []
  | 11 => demandRows s
  | 12 => flagRows s
  | 13 => slotRows s
  | g => counterRows s (groupCounters g)

/-! ## Conditions every run keeps -/

/-- The ALERT pin is asserted exactly while some set flag has class LAMP (R160). -/
def AlertFollows (s : State) : Prop := s.flags.alert = alertOf s.cfg s.flags.bits

/-- The link controller's capacities: receive queue 16, SIGHT FIFO 4, ANSWER FIFO 16, score 255 (R164, R165, R169). -/
structure LinkBounded (s : State) : Prop where
  queue : s.receive.queue.length ≤ 16
  sight : s.transmit.boxes.sight.length ≤ 4
  answer : s.transmit.boxes.answer.length ≤ 16
  score : s.link.score ≤ 255

/-- The plume records stand in the order of their front distances, the smaller first, and at one distance in the order of
their creation (R71). -/
def RecordsOrdered (s : State) : Prop :=
  s.timeline.records.Pairwise fun a b => a.df < b.df ∨ (a.df = b.df ∧ a.created ≤ b.created)

/-- The owners' capacities: timeline 12 records, demand list 16 entries, a reading list 8 records (R24, R71, R93). -/
structure ListsBounded (s : State) : Prop where
  plumes : s.timeline.records.length ≤ 12
  demands : s.demands.entries.length ≤ 16
  readings : ∀ (n : Fin 8) (i : PeerInfo), s.peers[n].presence = .present i → i.readings.length ≤ 8

/-- While the safe-source set of an INLET is non-empty, the regime is SAFE and both targets are the safe codes (R102); in
LOADING the set is empty (R110). -/
structure SafePosition (s : State) : Prop where
  applied : s.startup.role = .inlet → s.safe.nonempty = true →
    s.regime = .safe ∧ s.ramps.damper.target = s.cfg.mix.safeDamper ∧ s.ramps.blower.target = s.cfg.mix.safeBlower
  loading : s.startup.station = .loading → s.safe.nonempty = false

/-- A channel is IDLE exactly while its output is its target, and its interval timer runs exactly while it is MOVING
(R127, R128, R129). -/
def Channel.sound (c : Channel) : Prop := (c.moving = false ↔ c.output = c.target) ∧ c.timer.isSome = c.moving

/-- Both channels are sound. -/
def ChannelsSound (s : State) : Prop := s.ramps.damper.sound ∧ s.ramps.blower.sound

/-- The level flags of the safe-source set, the station state, the link state and the rules follow their conditions
(R102, R156, R159, R166, R184). -/
structure LevelFlags (s : State) : Prop where
  safeActive : s.flag .safeActive = s.safe.nonempty
  conflict : s.flag .conflict = decide (s.startup.station = .conflict)
  passive : s.flag .linkPassive = decide (s.link.state = .passive)
  withdrawn : s.flag .linkWithdrawn = decide (s.link.state = .withdrawn)
  rules : ∀ n : Fin 8, s.flag (.rule n) = s.rules[n].firing

/-- A WITHDRAWN station, and one in LOADING, has no frame on offer (R166, R173). -/
def QuietWhenSilenced (s : State) : Prop :=
  s.link.state = .withdrawn ∨ s.startup.station = .loading → s.transmit.offer = none

/-- In CONFLICT the mailboxes hold nothing but STATUS and ANSWER (R164, R173). -/
def ConflictMailboxes (s : State) : Prop :=
  s.startup.station = .conflict →
    s.transmit.boxes = { emptyBoxes with status := s.transmit.boxes.status, answer := s.transmit.boxes.answer }

/-- The PLUME state is HELD exactly while some record is ARMED or ENGULFED (R84). -/
def PlumeFollows (s : State) : Prop := s.timeline.hold = .held ↔ 0 < s.plumeCount

end Sys2Proof.Machine
end

