-- ==== Sys2Proof/Certificates/Slice0/Obligations.lean ====
section
/-! DEFINITION. The statements for the provers. -/

open Sys2Proof Sys2Proof.Machine

/-! ## The step and the resets -/

/-- A step with a command at the front of the queue is that command on the state with the queue's rest. -/
def Obligations.StepRunsTheFrontCommand : Prop :=
  ∀ (c : Instr) (rest : List Instr) (s : State),
    step { s with pending := c :: rest } = exec c { s with pending := rest }

/-- On an empty queue one millisecond passes (the model's choice, log 1): every running timer and every hold comes 1 ms
nearer, the ages of readings and plumes and the last status time of a PRESENT peer grow by 1 ms, and nothing else changes. -/
def Obligations.EmptyQueuePassesAMillisecond : Prop :=
  ∀ s : State, s.pending = [] → let down (x : Timer) : Timer := x.map (· - 1)
    ∃ t, step s = .next t ∧
    t.startup.joining = down s.startup.joining ∧
    t.sequencer.dwell = down s.sequencer.dwell ∧ t.sequencer.position = s.sequencer.position ∧
    (∀ i : Fin 16, t.sequencer.records[i] =
      { s.sequencer.records[i] with
        warmUp := down s.sequencer.records[i].warmUp, suspect := down s.sequencer.records[i].suspect }) ∧
    (∀ i : Input, t.inputs.get i = { level := (s.inputs.get i).level, timer := down (s.inputs.get i).timer }) ∧
    t.source = { s.source with
      travelTimer := down s.source.travelTimer, standstillTimer := down s.source.standstillTimer } ∧
    t.tracker = { s.tracker with loss := down s.tracker.loss } ∧
    (∀ n : Fin 8, t.peers[n].tally = s.peers[n].tally ∧
      (s.peers[n].presence = .absent → t.peers[n].presence = .absent) ∧
      (∀ i, s.peers[n].presence = .silent i → t.peers[n].presence = .silent i) ∧
      (∀ i, s.peers[n].presence = .present i → t.peers[n].presence = .present { i with
        lastStatusMs := i.lastStatusMs + 1, readings := i.readings.map fun r => { r with ageMs := r.ageMs + 1 } })) ∧
    t.detector = { s.detector with update := down s.detector.update, maxOpen := down s.detector.maxOpen } ∧
    t.timeline = { s.timeline with
      records := s.timeline.records.map fun r =>
        { r with ageMs := r.ageMs + 1, engulfMs := r.engulfMs.map (· + 1) }
      postHold := down s.timeline.postHold } ∧
    t.demands = { s.demands with entries := s.demands.entries.map fun e => { e with hold := down e.hold } } ∧
    t.safe.force = s.safe.force ∧ t.safe.conflict = s.safe.conflict ∧ t.safe.rule = s.safe.rule ∧
    (∀ n : Fin 8, t.safe.remote[n] = s.safe.remote[n].map fun m => { m with holdMs := m.holdMs - 1 }) ∧
    (∀ n : Fin 16, t.emitters.demand[n] =
      { held := s.emitters.demand[n].held, timer := down s.emitters.demand[n].timer }) ∧
    t.emitters.safe = { held := s.emitters.safe.held, timer := down s.emitters.safe.timer } ∧
    t.scrub = { active := s.scrub.active, timer := down s.scrub.timer, check := down s.scrub.check } ∧
    t.ramps =
      { damper := { s.ramps.damper with timer := down s.ramps.damper.timer }
        blower := { s.ramps.blower with timer := down s.ramps.blower.timer }
        settle := down s.ramps.settle, settled := s.ramps.settled } ∧
    t.accounting.timer = down s.accounting.timer ∧
    t.link = { s.link with
      withdrawal := down s.link.withdrawal, status := down s.link.status, reading := down s.link.reading } ∧
    t.receive.guard = s.receive.guard.map (fun g => { g with leftMs := g.leftMs - 1 }) ∧
    t.stretch =
      { peer := { factor := s.stretch.peer.factor, left := down s.stretch.peer.left }
        interval := { factor := s.stretch.interval.factor, left := down s.stretch.interval.left } } ∧
    Only [.joining, .records, .sweep, .inputs, .source, .tracker, .peers, .detector, .plumes, .plumeHold, .demands,
      .safeSet, .emitters, .scrub, .damper, .blower, .settle, .accountingTimer, .withdrawal, .statusTimer,
      .readingTimer, .guard, .stretch, .interval] s t ∧
    Notes [] s t

/-- The state after a power-on reset, whatever the pins: LOADING with the straps read, inputs at their pins' levels,
nothing heard, nothing held, outputs 0, counters 0, flags clear, the link silent. The straps are read SN0 and RS0 least
significant and high as 1 (log 44), and the lead is the placeholder configuration's lead margin (logs 9, 43). -/
def Obligations.ResetLeavesEveryBlockInItsResetState : Prop :=
  (∃ p, State.reset = State.afterReset p []) ∧
  ∀ (p : Pins) (q : List Instr), let s := State.afterReset p q
    s.pending = q ∧ s.pins = p ∧
    s.startup.station = .loading ∧ s.startup.own = p.ownNumber ∧ s.startup.strap = p.roleStrap ∧
    s.startup.joining = none ∧ s.startup.pendingReset = false ∧
    (∀ i : Input, (s.inputs.get i).level = p.level (.input i) ∧ (s.inputs.get i).timer = none) ∧
    s.sequencer.dwell = none ∧
    (∀ i : Fin 16, s.sequencer.records[i].value = 0 ∧ s.sequencer.records[i].seeded = false ∧
      s.sequencer.records[i].burden = none ∧ s.sequencer.records[i].warmUp = none ∧
      (s.sequencer.records[i].quality = .warming → s.sequencer.records[i].warmedUp = false) ∧
      s.sequencer.records[i].suspect = none) ∧
    s.source.accumulator = 0 ∧ s.source.count = 0 ∧ (∀ k : Fin 5, s.source.parts[k] = 0) ∧ s.source.current = 0 ∧
    s.source.speed = 0 ∧ s.source.standstill = true ∧ s.source.sequence = 0 ∧ s.source.travelTimer = none ∧
    s.source.standstillTimer = none ∧
    s.tracker = { state := .unsynced, reference := none, lastCount := 0, lastSequence := 0, speed := 0,
                  ignition := true, reverse := false, loss := none } ∧
    (∀ n : Fin 8, s.peers[n] = { presence := .absent, tally := 0 }) ∧
    s.detector.state = .clear ∧ s.detector.sequence = 0 ∧ s.detector.dsf = 0 ∧ s.detector.peak = 0 ∧
    s.detector.species = ⟨false, false⟩ ∧ s.detector.travelLost = false ∧ s.detector.update = none ∧
    s.detector.maxOpen = none ∧ (∀ i : Fin 16, s.detector.baselines[i].seeded = false) ∧
    s.timeline.records = [] ∧ s.timeline.hold = .off ∧ s.timeline.postHold = none ∧
    s.timeline.lead = s.cfg.timeline.leadMargin ∧
    s.demands.entries = [] ∧ s.demands.nextStamp = 0 ∧ s.safe.nonempty = false ∧ s.regime = .auto ∧
    (∀ n : Fin 16, s.emitters.demand[n] = { held := false, timer := none }) ∧
    s.emitters.safe = { held := false, timer := none } ∧ s.scrub = { active := false, timer := none, check := none } ∧
    s.mix = { kind := .none, bo := none, bc := none, co2 := none, floor := 0, wish := 0, fresh := 1000, recirc := 0,
              damper := none, blower := none } ∧
    s.ramps.damper.output = 0 ∧ s.ramps.damper.target = 0 ∧ s.ramps.damper.moving = false ∧
    s.ramps.damper.timer = none ∧ s.ramps.blower.output = 0 ∧ s.ramps.blower.target = 0 ∧
    s.ramps.blower.moving = false ∧ s.ramps.blower.timer = none ∧
    s.ramps.settle = none ∧ s.ramps.settled = false ∧
    (∀ c : Counter, s.cell c = { count := 0, rollover := false }) ∧ s.accounting.carry = 0 ∧
    s.accounting.ngAccumulator = 0 ∧ s.accounting.mgCount = 0 ∧ s.accounting.timer = none ∧
    (∀ n : Fin 8, s.rules[n] = { firing := false, fireTally := 0, releaseTally := 0 }) ∧
    (∀ f : Flag, s.flag f = false) ∧ s.flags.alert = false ∧
    (∀ b : Box, s.frames b = []) ∧ s.transmit.offer = none ∧
    s.link.score = 0 ∧ s.link.state = .active ∧ s.link.withdrawal = none ∧ s.link.status = none ∧
    s.link.reading = none ∧ s.receive.queue = [] ∧ s.receive.guard = none ∧
    s.stretch = { peer := { factor := 1, left := none }, interval := { factor := 1, left := none } }

/-- A power-on reset, and a RESET ALL carried out while its mark is set, leave that same state, with the pins as they
are. The outcome of a frame that was on offer is still to come, behind those of frames abandoned before (log 14). That the
row FULL_RESET_CARRIED_OUT acts whenever the mark is set, and changes nothing while it is clear, is the model's choice
(log 19). -/
def Obligations.ResetsLeaveTheResetState : Prop :=
  ∀ s : State, let abandons (t : State) : Prop :=
      t.transmit.abandoned = s.transmit.abandoned ++ s.transmit.offer.toList
    (∃ t, exec .powerOnReset s = .next t ∧ ResetState s t ∧ abandons t) ∧
    (s.transmit.offer = none → s.transmit.abandoned = [] →
      exec .powerOnReset s = .next (State.afterReset s.pins s.pending)) ∧
    (s.startup.pendingReset = true → ∃ t, exec .fullResetCarriedOut s = .next t ∧ ResetState s t ∧ abandons t) ∧
    (s.startup.pendingReset = false → ∃ t, exec .fullResetCarriedOut s = .next t ∧ Changes [] [] s t)

/-! ## Start-up -/

/-- The role and the configuration LOADING decides: an invalid image gives the strap's role its factory defaults with
CONFIG_DEFAULT; a valid image gives the strap's role, or for strap 3 its role byte's. Of a valid image every option bit,
slot number, position and acceptance entry is taken as it stands, every other field is taken as it stands when it is in
range and corrected when it is not, and CONFIG_ADJUSTED says whether the role byte or some field was corrected (which
fields count is log 29). -/
def Obligations.LoadingDecidesRoleAndConfiguration : Prop :=
  ∀ (strap : Fin 4) (image : List Byte), let l := loadImage strap.val image
    (imageValid (imageBytes image) = false →
      l.role = (if strap = 0 then .forward else if strap = 1 then .inlet else .cabin) ∧
      l.cfg = factoryDefault l.role ∧ l.isDefault = true ∧ l.adjusted = false) ∧
    (imageValid (imageBytes image) = true → l.isDefault = false ∧
      (strap = 0 → l.role = .forward) ∧ (strap = 1 → l.role = .inlet) ∧ (strap = 2 → l.role = .cabin) ∧
      (strap = 3 → byteAt (imageBytes image) 3 = 1 → l.role = .forward) ∧
      (strap = 3 → byteAt (imageBytes image) 3 = 2 → l.role = .inlet) ∧
      (strap = 3 → byteAt (imageBytes image) 3 = 3 → l.role = .cabin) ∧
      (strap = 3 → (byteAt (imageBytes image) 3 < 1 ∨ 3 < byteAt (imageBytes image) 3) → l.role = .cabin) ∧
      PlainFieldsTaken (imageBytes image) l.cfg ∧
      (∀ x ∈ imageFields (imageBytes image) l.role l.cfg, (x.inRange → x.taken) ∧ (¬ x.inRange → x.corrected)) ∧
      (l.adjusted = true ↔
        (strap = 3 ∧ (byteAt (imageBytes image) 3 < 1 ∨ 3 < byteAt (imageBytes image) 3)) ∨
        ∃ x ∈ imageFields (imageBytes image) l.role l.cfg, ¬ x.inRange))

/-- Every configuration that LOADING takes keeps the ranges of the chapters, field by field, from an image and from the
factory defaults: the close threshold is below the open threshold, C_lo below C_hi, bmin at or below bmax, the breakpoint
table rises, and every divisor is at least 1. The default slots a role does not have are free values within R1's ranges
(log 8). -/
def Obligations.ConfigurationInUseIsInRange : Prop :=
  ∀ (strap : Fin 4) (image : List Byte), let c := (loadImage strap.val image).cfg
    (1 ≤ c.faultTimeS ∧ c.faultTimeS ≤ 30 ∧ 500 ≤ c.staleTimeMs ∧ c.staleTimeMs ≤ 10000 ∧
      2 ≤ c.statusInterval ∧ c.statusInterval ≤ 60 ∧ 1 ≤ c.readingInterval ∧ c.readingInterval ≤ 60 ∧
      1 ≤ c.pulseScale ∧ c.pulseScale ≤ 4000 ∧ 3 ≤ c.demandHoldS ∧ c.demandHoldS ≤ 30 ∧ 1 ≤ c.safeHoldS ∧
      c.safeHoldS ≤ 30 ∧ 1 ≤ c.driverLevel ∧ c.driverLevel ≤ 7 ∧ 1 ≤ c.scrubLevel ∧ c.scrubLevel ≤ 7 ∧
      10 ≤ c.scrubTimeS ∧ c.scrubTimeS ≤ 300 ∧ 50 ≤ c.targetBurden ∧ c.targetBurden ≤ 2000 ∧
      5 ≤ c.stallTolerance ∧ c.stallTolerance ≤ 200 ∧ 10 ≤ c.fullFlow ∧ c.fullFlow ≤ 500 ∧ c.efficiency ≤ 1000 ∧
      1000 ≤ c.capacityMg ∧ c.capacityMg ≤ 100000) ∧
    (∀ i : Fin 16, let x := c.slots[i]
      1 ≤ x.limit ∧ x.limit ≤ 10000 ∧ 1 ≤ x.fullScale ∧ x.fullScale ≤ 10000 ∧ -512 ≤ x.gain ∧ x.gain ≤ 511 ∧
      -256 ≤ x.offset ∧ x.offset ≤ 255 ∧ x.shift ≤ 6 ∧ x.warmUpS ≤ 600) ∧
    (∀ i : Fin 4, 10 ≤ c.inputs[i].debounceMs ∧ c.inputs[i].debounceMs ≤ 250) ∧
    (4 ≤ c.detector.shift ∧ c.detector.shift ≤ 10 ∧ 25 ≤ c.detector.closeThreshold ∧
      c.detector.closeThreshold < c.detector.openThreshold ∧ 50 ≤ c.detector.openThreshold ∧
      c.detector.openThreshold ≤ 2000 ∧ 10 ≤ c.detector.maxOpenS ∧ c.detector.maxOpenS ≤ 120) ∧
    ((c.timeline.mask.pm || c.timeline.mask.no2) = true ∧ c.timeline.leadMargin ≤ 100 ∧ c.timeline.tailMargin ≤ 200 ∧
      10 ≤ c.timeline.reverseDrop ∧ c.timeline.reverseDrop ≤ 200 ∧ 2 ≤ c.timeline.approachCapS ∧
      c.timeline.approachCapS ≤ 60 ∧ 10 ≤ c.timeline.engulfCapS ∧ c.timeline.engulfCapS ≤ 300 ∧
      1 ≤ c.timeline.plumeLevel ∧ c.timeline.plumeLevel ≤ 7 ∧ c.timeline.postHoldS ≤ 20 ∧
      ∀ (n : Fin 8) (p : Nat), c.timeline.geometry[n] = some p → p ≤ 254) ∧
    (∀ r ∈ [c.damper, c.blower], 1 ≤ r.step ∧ r.step ≤ 255 ∧ 5 ≤ r.intervalMs ∧ r.intervalMs ≤ 200) ∧
    (c.mix.fallbackWish ≤ 1000 ∧ c.mix.fallbackFloor ≤ 1000 ∧
      400 ≤ c.mix.co2Low ∧ c.mix.co2Low ≤ 3000 ∧ c.mix.co2Low < c.mix.co2High ∧ c.mix.co2High ≤ 5000 ∧
      100 ≤ c.mix.band ∧ c.mix.band ≤ 2000 ∧ c.mix.blowerBase ≤ 1023 ∧ c.mix.blowerGain ≤ 2000 ∧
      c.mix.blowerMin ≤ c.mix.blowerMax ∧ c.mix.blowerMax ≤ 1023 ∧
      c.mix.table.b0.r = 0 ∧ c.mix.table.b0.r < c.mix.table.b1.r ∧ c.mix.table.b1.r < c.mix.table.b2.r ∧
      c.mix.table.b2.r < c.mix.table.b3.r ∧ c.mix.table.b3.r < c.mix.table.b4.r ∧ c.mix.table.b4.r = 1000 ∧
      c.mix.table.b0.p ≤ c.mix.table.b1.p ∧ c.mix.table.b1.p ≤ c.mix.table.b2.p ∧
      c.mix.table.b2.p ≤ c.mix.table.b3.p ∧ c.mix.table.b3.p ≤ c.mix.table.b4.p ∧ c.mix.table.b4.p ≤ 1023 ∧
      c.mix.safeDamper ≤ 1023 ∧ c.mix.safeBlower ≤ 1023 ∧ c.mix.flushBlower ≤ 1023 ∧ c.mix.scrubBlower ≤ 1023) ∧
    (∀ n : Fin 8, let r := c.rules[n]
      r.hysteresis ≤ 1000 ∧ 1 ≤ r.fireCount ∧ r.fireCount ≤ 15 ∧ 1 ≤ r.releaseCount ∧ r.releaseCount ≤ 15 ∧
      ∀ g level, r.action = .demand g level → 1 ≤ level ∧ level ≤ 7)

/-- LOADING_COMPLETE in LOADING: the station takes role and configuration, sets the two CONFIG flags, enters JOINING with
its timers started, the warm-ups among them, and the sequencer at its start slot, and queues STATUS; a travel source
follows itself. An INLET is SAFE, with the safe codes as the targets of both channels, and a force request and active
switches enter its set and its empty list at once, recirculation first. All seven inputs, FORCE, IGN and REV too, are taken
afresh with their timers stopped (log 12). -/
def Obligations.LoadingCompleteEntersJoining : Prop :=
  ∀ (image : List Byte) (s : State), s.startup.station = .loading →
    let l := loadImage s.startup.strap.val image
    ∃ t, exec (.loadingComplete image) s = .next t ∧
      t.startup.station = .joining ∧ t.startup.role = l.role ∧ t.cfg = l.cfg ∧
      t.flag .configDefault = l.isDefault ∧ t.flag .configAdjusted = l.adjusted ∧
      t.startup.joining = some (2 * l.cfg.statusInterval * 100) ∧
      t.accounting.timer = some 1000 ∧
      t.link.status = some (l.cfg.statusInterval * s.stretch.interval.factor * 100) ∧
      t.link.reading = some (l.cfg.readingInterval * s.stretch.interval.factor * 100) ∧
      t.source = { s.source with travelTimer := if l.cfg.travelSource then some 100 else none } ∧
      t.tracker = (if l.cfg.travelSource then { s.tracker with
        state := .tracking, reference := some s.startup.own, lastCount := 0, lastSequence := 0, loss := none }
        else s.tracker) ∧
      t.timeline.lead = l.cfg.timeline.leadMargin ∧
      t.sequencer.position = sweepStart l.cfg ∧
      t.sequencer.dwell = some l.cfg.slots[sweepStart l.cfg].dwell.ms ∧
      (∀ i : Fin 16, t.sequencer.records[i].value = 0 ∧ t.sequencer.records[i].seeded = false ∧
        t.sequencer.records[i].burden = none ∧ t.sequencer.records[i].suspect = none ∧
        t.sequencer.records[i].quality =
          (if inSweep l.cfg i && l.cfg.slots[i].channel.isSome then .warming else .absent) ∧
        (t.sequencer.records[i].quality = .warming →
          t.sequencer.records[i].warmedUp = decide (l.cfg.slots[i].warmUpS = 0) ∧
          t.sequencer.records[i].warmUp =
            if l.cfg.slots[i].warmUpS = 0 then none else some (l.cfg.slots[i].warmUpS * 1000)) ∧
        (t.sequencer.records[i].quality = .absent → t.sequencer.records[i].warmUp = none)) ∧
      (∀ i : Input, (t.inputs.get i).level = s.pins.level (.input i) ∧ (t.inputs.get i).timer = none) ∧
      (∃ f, t.frames .status = [f] ∧ f.kind = 6 ∧ f.station = s.startup.own) ∧
      (l.role = .inlet → t.regime = .safe ∧ t.ramps.damper.target = l.cfg.mix.safeDamper ∧
        t.ramps.blower.target = l.cfg.mix.safeBlower ∧
        t.safe = (if t.forceRequest then { s.safe with force := true } else s.safe) ∧
        (t.forceRequest = true → s.safe.nonempty = false → t.flag .safeActive = true) ∧
        (s.demands.entries = [] →
          let raised (level : Nat) (source : Fin 16) (r : DemandRegime) : DemandEntry :=
            { station := s.startup.own, source := source, regime := r, level := level, hold := none, stamp := 0 }
          let recirc := if t.recircSwitch then s.demands.insert (raised l.cfg.driverLevel 2 .recirc) else s.demands
          t.demands = if t.flushSwitch then recirc.insert (raised l.cfg.driverLevel 3 .flush) else recirc)) ∧
      (l.role ≠ .inlet → t.safe = s.safe ∧ t.demands = s.demands ∧ t.regime = s.regime ∧ t.ramps = s.ramps) ∧
      (∀ f, s.transmit.offer = some f → t.transmit.offer = some f) ∧
      Only [.station, .role, .joining, .cfg, .records, .sweep, .inputs, .source, .tracker, .lead, .demands, .safeSet,
        .regime, .damper, .blower, .settle, .counters, .accountingTimer, .flagBits, .alert, .boxes, .offer,
        .statusTimer, .readingTimer] s t ∧
      Notes [.flag .configDefault, .flag .configAdjusted, .flag .safeActive, .flag .stall, .flag .counterRollover,
        .counter .damperTravel, .counter .raised, .counter .demandEvicted, .counter .superseded, .box .status] s t

/-- JOINING_TIMER_EXPIRY with the joining timer running: the station is RUNNING. An INLET selects its regime by R103 and
hands on its targets; on the other roles every emitter whose condition holds becomes HELD, with its timer and its message
as when the condition begins. -/
def Obligations.JoiningTimerExpiryEntersRunning : Prop :=
  ∀ s : State, s.startup.station = .joining → s.startup.joining.isSome = true →
    ∃ t, exec .joiningTimerExpiry s = .next t ∧
      t.startup.station = .running ∧ t.startup.joining = none ∧
      (s.startup.role = .inlet →
        t.regime =
          (if s.safe.nonempty then .safe
            else if s.tracker.ignition = false then .idle
            else match s.demands.entries with
              | [] => .auto
              | e :: _ => e.regime.regime) ∧ TargetsHanded t ∧
        Changes [.station, .joining, .regime, .mix, .damper, .blower, .settle, .alert]
          [.counter .damperTravel, .flag .stall, .flag .counterRollover] s t) ∧
      (s.startup.role ≠ .inlet →
        (∀ (n : Fin 16) (r : DemandRegime) (level : Nat), emitterDemand s.cfg n = some (r, level) →
          s.emitters.demand[n].held = false → s.emitterCondition n = true → EmitterBegun n r level t) ∧
        (∀ n : Fin 16, emitterDemand s.cfg n = none ∨ s.emitters.demand[n].held = true ∨ s.emitterCondition n = false →
          t.emitters.demand[n] = s.emitters.demand[n] ∧ t.frames (.demand n) = s.frames (.demand n)) ∧
        (s.emitters.safe.held = false → (s.forceRequest || s.ruleSafe) = true → SafeEmitterBegun t) ∧
        (s.emitters.safe.held = false → (s.forceRequest || s.ruleSafe) = false → t.emitters.safe = s.emitters.safe ∧
          t.frames .safe = s.frames .safe) ∧
        Changes [.station, .joining, .emitters, .alert]
          (((List.finRange 16).map fun n => Note.box (.demand n)) ++
            [.box .safe, .counter .superseded, .flag .counterRollover]) s t)

/-! ## Sensing -/

/-- Calibration: V is D × (4096 + g) / 4096 truncated, plus o, clamped to 0–4095; the product is never negative, and with
g = 0 and o = 0 V is D. Smoothing: a follower moves toward the new value by the difference divided by 2^k, truncated
toward zero, by 1 where that is 0, and never past it; with k = 0 it becomes the new value. -/
def Obligations.ConversionAndSmoothing : Prop :=
  (∀ (c : SlotCfg) (code : Nat), code ≤ 4095 → -512 ≤ c.gain → c.gain ≤ 511 → -256 ≤ c.offset → c.offset ≤ 255 →
     0 ≤ (code : Int) * (4096 + c.gain) ∧
     (code : Int) * (4096 + c.gain) / 4096 + c.offset ≤ 4860 ∧
     (calibrate c code : Int) = max 0 (min 4095 ((code : Int) * (4096 + c.gain) / 4096 + c.offset)) ∧
     (c.gain = 0 → c.offset = 0 → calibrate c code = code)) ∧
  (∀ shift follower new : Nat,
     (follower = new → smooth shift follower new = new) ∧
     (follower < new → follower < smooth shift follower new ∧ smooth shift follower new ≤ new ∧
       smooth shift follower new = follower + max 1 ((new - follower) / 2 ^ shift)) ∧
     (new < follower → smooth shift follower new < follower ∧ new ≤ smooth shift follower new ∧
       smooth shift follower new = follower - max 1 ((follower - new) / 2 ^ shift)) ∧
     smooth 0 follower new = new)

/-- DWELL_EXPIRY with the dwell running: the slot at the sweep position is converted, its record by the table of R11 and
its burden from the resulting S; the other records stay; the next slot's dwell starts. Away from the stop slot nothing
else happens but SENSOR_FAULT's evaluation. At the stop slot the sweep end is announced: the detector takes it first, then
outside LOADING the rule table evaluates its rules in rule order and the mix law makes its computation, in the command's
order of the two (log 6), and the stall check comes last. -/
def Obligations.DwellExpiryConvertsTheSlot : Prop :=
  ∀ (code : Nat) (order : SweepOrder) (s : State), s.sequencer.dwell.isSome = true →
    let i := s.sequencer.position
    let c := s.cfg.slots[i]
    let old := s.sequencer.records[i]
    let u := calibrate c code * c.fullScale / 4095
    let rails := c.railCheck = true ∧ (code = 0 ∨ code = 4095)
    let ruled (u : State) : State :=
      if s.startup.station = .loading then u else (List.finRange 8).foldl (fun v n => v.evaluateRule n) u
    let swept (u : State) : State :=
      match order with
      | .rulesFirst => (ruled u).computeMix false
      | .mixFirst => ruled (u.computeMix false)
    ∃ t, exec (.dwellExpiry code order) s = .next t ∧
      (let new := t.sequencer.records[i]
      (c.channel = none → new = old) ∧
      (c.channel.isSome = true → new.warmUp = old.warmUp ∧ new.warmedUp = old.warmedUp ∧
        new.burden = (if new.seeded = true ∧ (c.kind = .pm ∨ c.kind = .no2 ∨ c.kind = .co2) then
          some (min 4000 (new.value * 1000 / c.limit)) else none) ∧
        (old.quality = .warming → old.warmedUp = false →
          new.quality = .warming ∧ new.value = old.value ∧ new.seeded = old.seeded ∧ new.suspect = old.suspect) ∧
        (old.quality = .warming → old.warmedUp = true → ¬ rails →
          new.quality = .good ∧ new.value = u ∧ new.seeded = true ∧ new.suspect = none) ∧
        (old.quality = .warming → old.warmedUp = true → rails →
          new.quality = .suspect ∧ new.value = old.value ∧ new.seeded = old.seeded ∧
          new.suspect = some (s.cfg.faultTimeS * 1000)) ∧
        (old.quality = .good → ¬ rails →
          new.quality = .good ∧ new.value = smooth c.shift old.value u ∧ new.seeded = old.seeded ∧
          new.suspect = old.suspect) ∧
        (old.quality = .good → rails →
          new.quality = .suspect ∧ new.value = old.value ∧ new.seeded = old.seeded ∧
          new.suspect = some (s.cfg.faultTimeS * 1000)) ∧
        (old.quality = .suspect → ¬ rails →
          new.quality = .good ∧ new.value = u ∧ new.seeded = true ∧ new.suspect = none) ∧
        (old.quality = .suspect → rails →
          new.quality = .suspect ∧ new.value = old.value ∧ new.seeded = old.seeded ∧ new.suspect = old.suspect) ∧
        (old.quality = .fault → ¬ rails → new.quality = .good ∧ new.value = u ∧ new.seeded = true) ∧
        (old.quality = .fault → rails →
          new.quality = .fault ∧ new.value = old.value ∧ new.seeded = old.seeded ∧ new.suspect = old.suspect))) ∧
      (∀ j : Fin 16, j ≠ i → t.sequencer.records[j] = s.sequencer.records[j]) ∧
      (c.channel.isSome = true →
        t.flag .sensorFault = (List.finRange 16).any fun j => t.sequencer.records[j].quality = .fault) ∧
      t.sequencer.position = (if i = s.cfg.stopSlot then sweepStart s.cfg else i + 1) ∧
      t.sequencer.dwell = some s.cfg.slots[t.sequencer.position].dwell.ms ∧
      (i ≠ s.cfg.stopSlot → Changes [.records, .sweep, .alert] [.flag .sensorFault] s t) ∧
      (i = s.cfg.stopSlot →
        Only [.records, .sweep, .detector, .rules, .emitters, .boxes, .demands, .safeSet, .regime, .mix, .damper,
          .blower, .settle, .counters, .flagBits, .alert, .offer] s t ∧
        Notes (.flag .sensorFault :: sweepEndNotes) s t ∧
        t.detector = (s.convertSlot i code).detectorSweep.detector ∧
        Changes [.sweep] [] (swept (s.convertSlot i code).detectorSweep).stallCheck t)

/-- WARM_UP_EXPIRY sets the warm-up elapsed state and changes no quality and no value; SUSPECT_TIMER_EXPIRY makes the slot
FAULT with S held, and SENSOR_FAULT is set. -/
def Obligations.SlotTimersExpire : Prop :=
  ∀ (i : Fin 16) (s : State), let old := s.sequencer.records[i]
    (old.warmUp.isSome = true → ∃ t, exec (.warmUpExpiry i) s = .next t ∧
      t.sequencer.records[i] = { old with warmedUp := true, warmUp := none } ∧
      (∀ j : Fin 16, j ≠ i → t.sequencer.records[j] = s.sequencer.records[j]) ∧
      Changes [.records] [] s t) ∧
    (old.suspect.isSome = true → ∃ t, exec (.suspectTimerExpiry i) s = .next t ∧
      t.sequencer.records[i] = { old with quality := .fault, suspect := none } ∧ t.flag .sensorFault = true ∧
      (∀ j : Fin 16, j ≠ i → t.sequencer.records[j] = s.sequencer.records[j]) ∧
      Changes [.records, .alert] [.flag .sensorFault] s t)

/-! ## Inputs -/

/-- PIN_EDGE: the pin takes its level. On a debounced input an edge away from the debounced level starts the debounce
timer afresh, and one back stops it; the level stays. A strap pin changes nothing else until a reset. In
LOADING the debounce time of DIN0 to DIN3 is the placeholder configuration's (log 37). -/
def Obligations.PinEdgeStartsOrStopsTheDebounce : Prop :=
  ∀ (pin : Pin) (level : Bool) (s : State), s.pins.level pin ≠ level →
    ∃ t, exec (.pinEdge pin level) s = .next t ∧
      t.pins.level pin = level ∧ (∀ p : Pin, p ≠ pin → t.pins.level p = s.pins.level p) ∧
      (∀ i : Input, pin = .input i →
        (t.inputs.get i).level = (s.inputs.get i).level ∧
        (level ≠ (s.inputs.get i).level → (t.inputs.get i).timer = some (match i with
          | .din n => s.cfg.inputs[n].debounceMs
          | .force => 50
          | .ign => 50
          | .rev => 50)) ∧
        (level = (s.inputs.get i).level → (t.inputs.get i).timer = none) ∧
        ∀ j : Input, j ≠ i → t.inputs.get j = s.inputs.get j) ∧
      ((∀ i : Input, pin ≠ .input i) → t.inputs = s.inputs) ∧
      Changes [.pins, .inputs] [] s t

/-- DEBOUNCE_EXPIRY with the timer running: the debounced level takes the pin's level and the timer stops. A change of the
recirculation or the flush switch, a function level, is handed on as the source DRIVER_RECIRC (2) or DRIVER_FLUSH (3) at
the driver level; a level that does not change is not. IGN and REV change nothing else, and so does every input in
LOADING. -/
def Obligations.DebounceExpiryTakesThePinLevel : Prop :=
  ∀ (i : Input) (s : State), (s.inputs.get i).timer.isSome = true →
    ∃ t, exec (.debounceExpiry i) s = .next t ∧
      t.inputs.get i = { level := s.pins.level (.input i), timer := none } ∧
      (∀ j : Input, j ≠ i → t.inputs.get j = s.inputs.get j) ∧
      Changes [.inputs, .scrub, .emitters, .demands, .safeSet, .regime, .mix, .damper, .blower, .settle, .alert]
        (.counter .doorOpenings :: levelNotes) s t ∧
      (s.startup.station ≠ .loading →
        (t.recircSwitch = true ↔ ∃ n, s.cfg.inputs[n].function = .switchRecirc ∧ t.inputActive n = true) ∧
        (t.flushSwitch = true ↔ ∃ n, s.cfg.inputs[n].function = .switchFlush ∧ t.inputActive n = true)) ∧
      (t.recircSwitch ≠ s.recircSwitch → ConditionHanded 2 .recirc s.cfg.driverLevel t.recircSwitch s t) ∧
      (t.flushSwitch ≠ s.flushSwitch → ConditionHanded 3 .flush s.cfg.driverLevel t.flushSwitch s t) ∧
      (t.anyDoorOpen = s.anyDoorOpen → t.recircSwitch = s.recircSwitch → t.flushSwitch = s.flushSwitch →
        t.forceRequest = s.forceRequest →
        Changes [.inputs, .alert] [.counter .doorOpenings, .flag .counterRollover] s t) ∧
      ((i = .ign ∨ i = .rev) → Changes [.inputs] [] s t) ∧
      (s.startup.station = .loading → Changes [.inputs] [] s t)

/-- A debounced change of the force request, which the FORCE pin or an input of function FORCE_ALT makes: an INLET outside
LOADING takes the FORCE member into its safe-source set or lets it go, and hands on what the set's passage between empty and
non-empty brings; on a FORWARD or CABIN in RUNNING the safe emitter begins, or ends when no reason holds any longer. -/
def Obligations.ForceRequestReachesTheSafeLogic : Prop :=
  ∀ (i : Input) (s : State), (s.inputs.get i).timer.isSome = true → s.startup.station ≠ .loading →
    ∃ t, exec (.debounceExpiry i) s = .next t ∧
      (t.forceRequest = true ↔ t.inputs.force.level = true ∨
        ∃ n, s.cfg.inputs[n].function = .forceAlt ∧ t.inputActive n = true) ∧
      (t.forceRequest ≠ s.forceRequest → SafeReasonHanded { s.safe with force := t.forceRequest } s t ∧
        Changes (.inputs :: .emitters :: .safeSet :: selectionParts) forceNotes s t)

/-- The doors of a CABIN in RUNNING: a DOOR input that becomes active counts a door opening; when the last open door
closes the scrub starts, is counted and raises SCRUB; when a door opens the scrub is OFF. -/
def Obligations.DoorsDriveTheScrub : Prop :=
  ∀ (n : Fin 4) (s : State), (s.inputs.get (.din n)).timer.isSome = true → s.startup.role = .cabin →
    s.startup.station = .running → s.cfg.inputs[n].function = .door →
    ∃ t, exec (.debounceExpiry (.din n)) s = .next t ∧
      (s.inputActive n = false → t.inputActive n = true →
        t.cell .doorOpenings = (s.cell .doorOpenings).add 1 ∧ t.anyDoorOpen = true) ∧
      (s.inputActive n = true → t.cell .doorOpenings = s.cell .doorOpenings) ∧
      (s.anyDoorOpen = true → t.anyDoorOpen = false →
        t.scrub = { active := true, timer := some (s.cfg.scrubTimeS * 1000), check := some 1000 } ∧
        t.cell .scrubsStarted = (s.cell .scrubsStarted).add 1 ∧
        (s.emitters.demand[(1 : Fin 16)].held = false → t.emitters.demand[(1 : Fin 16)].held = true ∧
          ∃ f, t.frames (.demand 1) = [f] ∧ f.kind = 5 ∧ f.index = 1 ∧ f.byte 0 = 3 ∧
            f.byte 1 = s.cfg.scrubLevel % 256 ∧ f.byte 2 = s.cfg.demandHoldS % 256)) ∧
      (s.anyDoorOpen = false → t.anyDoorOpen = true → s.scrub.active = true →
        t.scrub = { active := false, timer := none, check := none } ∧
        t.cell .scrubsEndedEarly = s.cell .scrubsEndedEarly)

/-! ## Travel -/

/-- ODO_PULSE on a working source: 100 is added to the accumulator and every whole decimetre leaves it for the running
count and the current window part; standstill clears and its timer restarts. A part that would outgrow its range 0 to
65535 takes some value within it, which no rule gives (log 36). STANDSTILL_TIMER_EXPIRY sets standstill. -/
def Obligations.PulseIsCountedInDecimetres : Prop :=
  ∀ s : State,
    (s.cfg.travelSource = true → s.startup.station ≠ .loading → 1 ≤ s.cfg.pulseScale →
      ∃ t dm, exec .odoPulse s = .next t ∧
        t.source.accumulator + s.cfg.pulseScale * dm = s.source.accumulator + 100 ∧
        t.source.accumulator < s.cfg.pulseScale ∧
        t.source.count = (s.source.count + dm) % 65536 ∧
        (s.source.current + dm ≤ 65535 → t.source.current = s.source.current + dm) ∧ t.source.current ≤ 65535 ∧
        t.source.standstill = false ∧ t.source.standstillTimer = some 1000 ∧
        t.source.parts = s.source.parts ∧ t.source.speed = s.source.speed ∧
        t.source.sequence = s.source.sequence ∧ t.source.travelTimer = s.source.travelTimer ∧
        Changes [.source] [] s t) ∧
    (s.cfg.travelSource = false ∨ s.startup.station = .loading →
      ∃ t, exec .odoPulse s = .next t ∧ Changes [] [] s t) ∧
    (s.source.standstillTimer.isSome = true → ∃ t, exec .standstillTimerExpiry s = .next t ∧
      t.source = { s.source with standstill := true, standstillTimer := none } ∧ Changes [.source] [] s t)

/-- TRAVEL_TIMER_EXPIRY with the timer running: the window part closes, the speed is twice the sum of the five closed
parts and at most 1000, the sequence advances, and TRAVEL is queued outside CONFLICT; a tracker that follows its own
station takes the content as its feed, and hands its travel notice to the detector and the timeline; a change of the
ignition selects the regime again, in the command's order of the two (log 7). -/
def Obligations.TravelTimerFormsTravel : Prop :=
  ∀ (order : TravelOrder) (s : State), s.source.travelTimer.isSome = true →
    let delta := (s.source.count + 65536 - s.tracker.lastCount) % 65536
    ∃ t, exec (.travelTimerExpiry order) s = .next t ∧
      t.source.parts.toList = s.source.parts.toList.drop 1 ++ [s.source.current] ∧ t.source.current = 0 ∧
      t.source.speed = min 1000 (2 * t.source.parts.toList.sum) ∧
      t.source.sequence = (s.source.sequence + 1) % 256 ∧ t.source.travelTimer = some 100 ∧
      t.source.count = s.source.count ∧ t.source.accumulator = s.source.accumulator ∧
      t.source.standstill = s.source.standstill ∧ t.source.standstillTimer = s.source.standstillTimer ∧
      (s.startup.station ≠ .conflict → s.source.count < 65536 → ∃ f, t.frames .travel = [f] ∧ f.kind = 4 ∧
        f.station = s.startup.own ∧ f.data.length = 6 ∧ f.word 0 = s.source.count ∧ f.word 2 = t.source.speed ∧
        (f.byte 4).testBit 0 = s.inputs.ign.level ∧ (f.byte 4).testBit 1 = s.inputs.rev.level ∧
        (f.byte 4).testBit 2 = s.source.standstill ∧ f.byte 5 = t.source.sequence) ∧
      (s.tracker.state = .tracking → s.tracker.reference = some s.startup.own →
        s.tracker.lastSequence ≠ t.source.sequence → s.source.count < 65536 →
        t.tracker.state = .tracking ∧ t.tracker.reference = some s.startup.own ∧
        t.tracker.lastCount = s.source.count ∧ t.tracker.lastSequence = t.source.sequence ∧
        t.tracker.speed = (if s.source.standstill then 0 else t.source.speed) ∧
        t.tracker.ignition = s.inputs.ign.level ∧ t.tracker.reverse = s.inputs.rev.level ∧
        ∃ u : State, u.source = t.source ∧ u.tracker = t.tracker ∧
          Changes [.source, .tracker, .alert]
            (.counter .discontinuities :: .flag .travelDiscontinuity :: postNotes .travel) s u ∧
          Changes [] [] (travelHanded order s.tracker.ignition (if delta ≤ 600 then delta else 0)
            s.inputs.rev.level t.tracker.speed u) t) ∧
      Changes [.source, .tracker, .detector, .plumes, .lead, .plumeHold, .demands, .regime, .mix, .damper, .blower,
        .settle, .alert] (postNotes .travel ++ trackerNotes) s t

/-- TRAVEL_TAKEN with a TRAVEL at the head of the receive queue: a travel source ignores and counts it; elsewhere the
tracker follows by its state and the sender's number. A repeat only restarts the loss timer; a distance above 600 dm is a
discontinuity, counted and flagged. A TRAVEL that is followed hands its travel notice to the detector and the timeline,
with delta 0 but for the reference's next one within 600 dm; a change of the ignition selects the regime again, in the
command's order of the two (log 7). -/
def Obligations.TravelTakenByTheTracker : Prop :=
  ∀ (order : TravelOrder) (s : State) (f : Frame) (rest : List Frame), Delivered s 4 f rest →
    let speed := if (f.byte 4).testBit 2 then 0 else min 1000 (f.word 2)
    let delta := (f.word 0 + 65536 - s.tracker.lastCount) % 65536
    let followed : Tracker :=
      { state := .tracking, reference := some f.station, lastCount := f.word 0, lastSequence := f.byte 5
        speed := speed, ignition := (f.byte 4).testBit 0, reverse := (f.byte 4).testBit 1, loss := some 500 }
    let hands (d : Nat) (parts : List Part) (notes : List Note) (t : State) : Prop :=
      ∃ u : State, u.tracker = followed ∧ u.receive.queue = rest ∧ Changes (.queue :: .tracker :: parts) notes s u ∧
        (s.startup.role = .forward → .detector ∈ parts → u.detector = { s.detector with travelLost := false }) ∧
        (s.startup.role ≠ .forward → u.detector = s.detector) ∧
        Changes [] [] (travelHanded order s.tracker.ignition d ((f.byte 4).testBit 1) speed u) t
    ∃ t, exec (.travelTaken order) s = .next t ∧ t.receive.queue = rest ∧
      (s.cfg.travelSource = true → t.cell .travelIgnored = (s.cell .travelIgnored).add 1 ∧
        Changes [.queue, .alert] [.counter .travelIgnored, .flag .counterRollover] s t) ∧
      (s.cfg.travelSource = false → s.tracker.state ≠ .tracking →
        t.tracker = followed ∧ t.flag .travelLost = false ∧
        (s.startup.role = .forward → t.detector.travelLost = false) ∧
        hands 0 [.detector, .alert] [.flag .travelLost] t) ∧
      (s.cfg.travelSource = false → s.tracker.state = .tracking → s.tracker.reference = some f.station →
        (f.byte 5 = s.tracker.lastSequence →
          t.tracker = { s.tracker with loss := some 500 } ∧ Changes [.queue, .tracker] [] s t) ∧
        (f.byte 5 ≠ s.tracker.lastSequence → t.tracker = followed ∧
          (delta ≤ 600 → t.cell .discontinuities = s.cell .discontinuities ∧
            t.flag .travelDiscontinuity = s.flag .travelDiscontinuity ∧ hands delta [] [] t) ∧
          (600 < delta → t.cell .discontinuities = (s.cell .discontinuities).add 1 ∧
            t.flag .travelDiscontinuity = true ∧
            hands 0 [.alert] [.counter .discontinuities, .flag .travelDiscontinuity, .flag .counterRollover] t))) ∧
      (∀ r : Fin 8, s.cfg.travelSource = false → s.tracker.state = .tracking → s.tracker.reference = some r →
        (f.station < r → t.tracker = followed ∧ hands 0 [] [] t) ∧
        (r < f.station → t.tracker = s.tracker ∧ t.cell .travelIgnored = (s.cell .travelIgnored).add 1 ∧
          Changes [.queue, .alert] [.counter .travelIgnored, .flag .counterRollover] s t)) ∧
      Changes [.queue, .tracker, .detector, .plumes, .lead, .plumeHold, .demands, .regime, .mix, .damper, .blower,
        .settle, .alert] trackerNotes s t

/-- LOSS_TIMER_EXPIRY with the timer running: the tracker is LOST with its other fields kept, TRAVEL_LOST is set, the
detector of a FORWARD is marked travel-lost, and no record of an INLET stays APPROACHING, with the PLUME state judged at
the end. -/
def Obligations.LossTimerMakesTheTrackerLost : Prop :=
  ∀ s : State, s.tracker.loss.isSome = true →
    ∃ t, exec .lossTimerExpiry s = .next t ∧
      t.tracker = { s.tracker with state := .lost, loss := none } ∧ t.flag .travelLost = true ∧
      (s.startup.role = .forward → t.detector = { s.detector with travelLost := true }) ∧
      (s.startup.role = .inlet → s.startup.station ≠ .loading →
        t.timeline.records = s.timeline.records.map fun r =>
          if r.phase = .approaching then { r with phase := .armed } else r) ∧
      (s.startup.role = .inlet → s.startup.station ≠ .loading → PlumeJudged [.tracker, .alert] [.flag .travelLost]
        (s.timeline.records.any fun r => decide (r.phase = .approaching)) s t) ∧
      (s.startup.role ≠ .inlet ∨ s.startup.station = .loading →
        Changes [.tracker, .detector, .alert] [.flag .travelLost] s t) ∧
      Changes [.tracker, .detector, .plumes, .lead, .plumeHold, .demands, .regime, .mix, .damper, .blower, .settle,
        .alert] (.flag .travelLost :: holdNotes) s t

/-- A travel notice at the detector of a FORWARD moves Dsf while a sighting is open: forward up to 65535, reverse down to 0;
in CLEAR and PENDING nothing changes. A forward notice at the timeline of an INLET: each record's Df and Dt come nearer by
Δ with a floor at 0; one that reaches 0 is ENGULFED. A reverse notice: each Dt and each Df short of the intake grows by Δ up
to 65535, and a record further away than max(0, O) + reverse drop is removed and counted. A notice of delta 0, whatever its
direction, moves nothing and drops nothing (log 31). After any of them those whose tail has passed are gone, the lead is
computed from the notice's speed and the damper's closing time by its mode, every APPROACHING record within it is ARMED, and
the PLUME state is judged. A delta puts the records in their order, and delta 0 keeps an order. -/
def Obligations.TravelMovesTheSightingAndTheRecords : Prop :=
  (∀ (s : State) (delta : Nat) (reverse : Bool), s.startup.role = .forward →
     let t := s.detectorTravel delta reverse
     (s.detector.state = .opened ∨ s.detector.state = .closing →
       t.detector = { s.detector with
         dsf := if reverse then s.detector.dsf - delta else min 65535 (s.detector.dsf + delta) }) ∧
     (s.detector.state = .clear ∨ s.detector.state = .pending → t = s)) ∧
  (∀ (s : State) (delta speed : Nat) (reverse : Bool), s.startup.role = .inlet → s.startup.station ≠ .loading →
     let t := s.timelineTravel delta reverse speed
     let ahead (r : PlumeRecord) : PlumeRecord :=
       { r with
         df := if r.phase = .engulfed then r.df else r.df - delta
         dt := r.dt.map (· - delta)
         phase := if r.phase ≠ .engulfed ∧ r.df ≤ delta then .engulfed else r.phase
         engulfMs := if r.phase ≠ .engulfed ∧ r.df ≤ delta then some 0 else r.engulfMs }
     let back (r : PlumeRecord) : PlumeRecord :=
       { r with
         df := if r.phase = .engulfed then r.df else min 65535 (r.df + delta)
         dt := r.dt.map fun d => min 65535 (d + delta) }
     let moved (r : PlumeRecord) : PlumeRecord := if delta = 0 then r else if reverse then back r else ahead r
     let leaves (r : PlumeRecord) : Bool := decide (1 ≤ delta ∧ reverse = true ∧ r.phase ≠ .engulfed ∧
       (max 0 r.offset).toNat + s.cfg.timeline.reverseDrop < (back r).df)
     let passes (r : PlumeRecord) : Bool := r.length.isSome && decide (r.dt = some 0)
     let arms (r : PlumeRecord) : Bool := decide (r.phase = .approaching ∧ r.df ≤ t.timeline.lead)
     let kept := ((s.timeline.records.filter fun r => !leaves r).map moved).filter fun r => !passes r
     let became := (s.timeline.records.any fun r => decide (r.phase ≠ .engulfed ∧ (moved r).phase = .engulfed)) ||
       kept.any arms
     let d := (s.ramps.damper.output - s.cfg.mix.table.b4.p) + (s.cfg.mix.table.b4.p - s.ramps.damper.output)
     let steps (size : Nat) : Nat := (d + size - 1) / size
     let closing := match s.cfg.damper.mode with
       | .linear => steps s.cfg.damper.step * s.cfg.damper.intervalMs
       | .eased => steps (max 1 (s.cfg.damper.step / 4)) * s.cfg.damper.intervalMs
       | .off => 0
     t.timeline.lead = min 65535 ((speed * closing + 999) / 1000 + s.cfg.timeline.leadMargin) ∧
     t.timeline.records.Perm (kept.map fun r => if arms r then { r with phase := .armed } else r) ∧
     (1 ≤ delta ∨ RecordsOrdered s → RecordsOrdered t) ∧
     PlumeJudged [.lead, .alert] [.counter .reverseDropped, .flag .counterRollover] became s t ∧
     t.cell .reverseDropped = (s.cell .reverseDropped).add (s.timeline.records.filter leaves).length ∧
     Changes (.plumes :: .lead :: .plumeHold :: .demands :: selectionParts) travelNotes s t)

/-! ## Peers -/

/-- STATUS_TAKEN with a STATUS of another station at the head of the receive queue. An unusable one is counted as an
unknown kind and changes no entry. A usable one makes the entry PRESENT with its fields; the reading list is kept only for
a PRESENT peer of the same role; a role change purges the peer at an INLET. When the cabin peer, or the combined burden
held for it, is another than before, the mix law makes its computation on the new entry; otherwise it makes none. -/
def Obligations.StatusTakenByThePeerTable : Prop :=
  ∀ (s : State) (f : Frame) (rest : List Frame), Delivered s 6 f rest → f.station ≠ s.startup.own →
    let n := f.station
    let usable := f.byte 0 % 4 ≠ 0 ∧ f.byte 0 / 16 % 4 ≠ 0
    ∃ t, exec .statusTaken s = .next t ∧ t.receive.queue = rest ∧
      (¬ usable → t.cell .unknownKinds = (s.cell .unknownKinds).add 1 ∧
        Changes [.queue, .alert] [.counter .unknownKinds, .flag .counterRollover] s t) ∧
      (usable → ∃ i : PeerInfo, t.peers[n] = { presence := .present i, tally := s.peers[n].tally } ∧
        roleCode i.role = f.byte 0 % 4 ∧ announcedCode i.announced = f.byte 0 / 16 % 4 ∧
        i.intervalMs = max 1 (f.byte 7) * 100 ∧ i.lastStatusMs = 0 ∧
        i.burden = (if f.word 4 = 65535 then none else some (min 4000 (f.word 4))) ∧
        (i.role = .inlet → i.damper = some (min 1023 (f.word 2)) ∧
          i.regime.map (fun r => (regimeCode r).val) = if f.byte 1 ≤ 5 then some (f.byte 1) else none) ∧
        (i.role ≠ .inlet → i.damper = none ∧ i.regime = none) ∧ i.summary.toNat = f.byte 6 ∧
        (∀ o, s.peers[n].presence = .present o → o.role = i.role → i.readings = o.readings) ∧
        ((∀ o, s.peers[n].presence = .present o → o.role ≠ i.role) → i.readings = []) ∧
        (∀ o, s.peers[n].presence.fields? = some o → o.role ≠ i.role → s.startup.role = .inlet →
          (∀ e ∈ t.demands.entries, e.station ≠ n) ∧ t.safe.remote[n] = none) ∧
        ∃ u : State, u.peers = t.peers ∧
          Changes (.queue :: .peers :: .demands :: .safeSet :: selectionParts) purgeNotes s u ∧
          ((∀ o, s.peers[n].presence.fields? = some o → o.role = i.role) → Changes [.queue, .peers] [] s u) ∧
          ((t.cabinPeer ≠ s.cabinPeer ∨ t.cabinBurden ≠ s.cabinBurden) → Changes [] [] (u.computeMix false) t) ∧
          (t.cabinPeer = s.cabinPeer → t.cabinBurden = s.cabinBurden → Changes [] [] u t)) ∧
      (∀ m : Fin 8, m ≠ n → t.peers[m] = s.peers[m]) ∧
      Changes [.queue, .peers, .demands, .safeSet, .regime, .mix, .damper, .blower, .settle, .alert] statusNotes s t

/-- READING_TAKEN with a READING at the head of the receive queue: from a PRESENT peer it stands at the end of the list
with age 0, in place of the record of its key, or of the oldest of eight; unusable it is counted; from another peer it
changes nothing. The (CO2, CABIN) record of the cabin peer makes the mix law compute, and no other record does. -/
def Obligations.ReadingTakenByThePeerTable : Prop :=
  ∀ (s : State) (f : Frame) (rest : List Frame), Delivered s 7 f rest →
    let n := f.station
    let usable := f.byte 0 % 8 ≤ 6 ∧ f.byte 0 / 8 % 4 ≤ 2 ∧ f.byte 0 / 32 ≤ 4
    ∃ t, exec .readingTaken s = .next t ∧ t.receive.queue = rest ∧
      ((∀ i, s.peers[n].presence ≠ .present i) → Changes [.queue] [] s t) ∧
      (∀ i, s.peers[n].presence = .present i → ¬ usable →
        t.cell .unknownKinds = (s.cell .unknownKinds).add 1 ∧
        Changes [.queue, .alert] [.counter .unknownKinds, .flag .counterRollover] s t) ∧
      (∀ i, s.peers[n].presence = .present i → usable → ∃ (r : Reading) (others : List Reading),
        t.peers[n] = { s.peers[n] with presence := .present { i with readings := others ++ [r] } } ∧
        kindCode r.kind = f.byte 0 % 8 ∧ locationCode r.location = f.byte 0 / 8 % 4 ∧
        qualityCode r.quality = f.byte 0 / 32 ∧ r.value = min 10000 (f.word 1) ∧
        r.burden = (if f.word 3 = 65535 then none else some (min 4000 (f.word 3))) ∧ r.ageMs = 0 ∧ r.stale = false ∧
        (i.readings.any (·.hasKey r.kind r.location) = true →
          others = i.readings.filter fun x => !x.hasKey r.kind r.location) ∧
        (i.readings.any (·.hasKey r.kind r.location) = false → i.readings.length < 8 → others = i.readings) ∧
        (i.readings.any (·.hasKey r.kind r.location) = false → 8 ≤ i.readings.length →
          others = i.readings.drop 1)) ∧
      (∀ i, s.peers[n].presence = .present i → usable →
        (s.cabinPeer = some n → f.byte 0 % 8 = 2 → f.byte 0 / 8 % 4 = 2 →
          ∃ u : State, u.peers = t.peers ∧ Changes [.queue, .peers] [] s u ∧ Changes [] [] (u.computeMix false) t) ∧
        (s.cabinPeer ≠ some n ∨ f.byte 0 % 8 ≠ 2 ∨ f.byte 0 / 8 % 4 ≠ 2 → Changes [.queue, .peers] [] s t)) ∧
      (∀ m : Fin 8, m ≠ n → t.peers[m] = s.peers[m]) ∧
      Changes [.queue, .peers, .mix, .damper, .blower, .settle, .alert] (.counter .unknownKinds :: rampNotes) s t

/-- READING_STALE of a PRESENT peer: a record of the key whose age has reached the staleness limit is unknown to every user,
its fields as they were but for the model's mark of a stale record (log 25); a younger one stays as it was.
SILENCE_LIMIT_REACHED for a PRESENT entry whose last status time has reached 3 × I × f: it is SILENT with role, announced
state, interval and summary kept and the rest removed, the tally is incremented, PEER_LOST is set, an INLET purges the
peer, and the loss of the cabin peer makes the mix law compute. Short of the limit, and for another entry, nothing
changes. -/
def Obligations.StalenessAndSilence : Prop :=
  (∀ (n : Fin 8) (k : Kind) (l : Location) (s : State),
     let limit := s.cfg.staleTimeMs * s.stretch.peer.factor
     (∀ i, s.peers[n].presence = .present i → ∃ t, exec (.readingStale n k l) s = .next t ∧
       t.peers[n] = { s.peers[n] with presence := .present { i with readings := i.readings.map fun r =>
         if r.kind = k ∧ r.location = l ∧ limit ≤ r.ageMs then { r with stale := true } else r } } ∧
       ((∀ r ∈ i.readings, r.kind = k → r.location = l → limit ≤ r.ageMs) → t.peerValue n k l = none) ∧
       ((∀ r ∈ i.readings, r.kind = k → r.location = l → r.ageMs < limit) → Changes [] [] s t) ∧
       (∀ m : Fin 8, m ≠ n → t.peers[m] = s.peers[m]) ∧ Changes [.peers] [] s t) ∧
     ((∀ i, s.peers[n].presence ≠ .present i) → ∃ t, exec (.readingStale n k l) s = .next t ∧ Changes [] [] s t)) ∧
  (∀ (n : Fin 8) (s : State),
     (∀ i, s.peers[n].presence = .present i → 3 * i.intervalMs * s.stretch.peer.factor ≤ i.lastStatusMs →
       ∃ t, exec (.silenceLimitReached n) s = .next t ∧
       t.peers[n] =
         { presence := .silent { i with readings := [], burden := none, regime := none, damper := none }
           tally := (s.peers[n].tally + 1) % 4294967296 } ∧
       t.flag .peerLost = true ∧
       (s.startup.role = .inlet → s.startup.station ≠ .loading →
         t.demands.entries = s.demands.entries.filter (fun e => e.station ≠ n) ∧ t.safe.remote[n] = none ∧
         t.cell .purged =
           (s.cell .purged).add (s.demands.entries.filter fun e => decide (e.station = n)).length) ∧
       (s.cabinPeer = some n → ∃ u : State, u.peers = t.peers ∧ u.demands = t.demands ∧ u.safe = t.safe ∧
         u.regime = t.regime ∧ Changes (.peers :: .demands :: .safeSet :: selectionParts) silentNotes s u ∧
         Changes [] [] (u.computeMix false) t) ∧
       (∀ m : Fin 8, m ≠ n → t.peers[m] = s.peers[m]) ∧
       Changes [.peers, .demands, .safeSet, .regime, .mix, .damper, .blower, .settle, .alert] silentNotes s t) ∧
     ((∀ i, s.peers[n].presence = .present i → i.lastStatusMs < 3 * i.intervalMs * s.stretch.peer.factor) →
       ∃ t, exec (.silenceLimitReached n) s = .next t ∧ Changes [] [] s t))

/-- A peer reading is known exactly when the five conditions of R37 hold of the record of its key. Beside the age bound
stands the model's mark of a record that was stale before the stretch factor rose and has not been updated since: it stays
stale (log 25). -/
def Obligations.PeerReadingIsKnownUnderFiveConditions : Prop :=
  ∀ (s : State) (n : Fin 8) (k : Kind) (l : Location) (v : Nat),
    s.peerValue n k l = some v ↔
      ∃ (i : PeerInfo) (r : Reading) (before after : List Reading), s.peers[n].presence = .present i ∧
        i.readings = before ++ r :: after ∧ (∀ x ∈ before, ¬ (x.kind = k ∧ x.location = l)) ∧
        r.kind = k ∧ r.location = l ∧ r.value = v ∧
        (r.stale = false ∧ r.ageMs < s.cfg.staleTimeMs * s.stretch.peer.factor) ∧
        (r.quality = .good ∨ r.quality = .suspect) ∧
        (k = .pm ∨ k = .no2 ∨ k = .co2 → r.burden.isSome = true)

/-! ## The sighting detector -/

/-- A sweep end at the detector of a FORWARD in RUNNING: one transition by the excess burdens of R56, with the content it
queues, and then the baselines, updated in CLEAR and PENDING and frozen in OPEN and CLOSING. -/
def Obligations.SweepEndTakesOneDetectorTransition : Prop :=
  ∀ s : State, s.startup.role = .forward → s.startup.station = .running →
    let t := s.detectorSweep
    let d := s.detector
    let e := t.detector
    let c := s.cfg.detector
    let watched (i : Fin 16) : Prop :=
      inSweep s.cfg i = true ∧ s.cfg.slots[i].plumeWatch = true ∧
        (s.cfg.slots[i].kind = .pm ∨ s.cfg.slots[i].kind = .no2)
    let xb (i : Fin 16) : Nat :=
      match s.slotValue i with
      | none => 0
      | some v =>
        if d.baselines[i].seeded then min 4000 ((v - d.baselines[i].value) * 1000 / s.cfg.slots[i].limit) else 0
    let opens : Prop := ∃ i, watched i ∧ c.openThreshold ≤ xb i
    let stays : Prop := ∃ i, watched i ∧ c.closeThreshold ≤ xb i
    let standsOut (k : Kind) : Prop := ∃ i, watched i ∧ s.cfg.slots[i].kind = k ∧ c.closeThreshold ≤ xb i
    let updated : Prop := ∀ i : Fin 16,
      (∀ v, watched i → s.slotValue i = some v → e.baselines[i] =
        { value := if d.baselines[i].seeded then smooth c.shift d.baselines[i].value v else v, seeded := true }) ∧
      (¬ watched i ∨ s.slotValue i = none → e.baselines[i] = d.baselines[i])
    let folded : Prop :=
      d.peak ≤ e.peak ∧ (∀ i, watched i → xb i ≤ e.peak) ∧ (e.peak = d.peak ∨ ∃ i, watched i ∧ e.peak = xb i) ∧
      (e.species.pm = true ↔ d.species.pm = true ∨ standsOut .pm) ∧
      (e.species.no2 = true ↔ d.species.no2 = true ∨ standsOut .no2)
    (d.state = .clear → (opens → e.state = .pending) ∧ (¬ opens → e.state = .clear) ∧ updated ∧
      e = { d with state := e.state, baselines := e.baselines } ∧ Changes [.detector] [] s t) ∧
    (d.state = .pending → ¬ opens → e.state = .clear ∧ updated ∧
      e = { d with state := .clear, baselines := e.baselines } ∧ Changes [.detector] [] s t) ∧
    (d.state = .pending → opens → e.state = .opened ∧ e.sequence = (d.sequence + 1) % 256 ∧ e.dsf = 0 ∧
      (∀ i, watched i → xb i ≤ e.peak) ∧ (∃ i, watched i ∧ e.peak = xb i) ∧
      (e.species.pm = true ↔ standsOut .pm) ∧ (e.species.no2 = true ↔ standsOut .no2) ∧
      e.update = some 250 ∧ e.maxOpen = some (c.maxOpenS * 1000) ∧ e.travelLost = d.travelLost ∧
      e.baselines = d.baselines ∧ t.cell .sightingsOpened = (s.cell .sightingsOpened).add 1 ∧
      ((s.frames .sight).length < 4 → ∃ f, t.frames .sight = s.frames .sight ++ [f] ∧ f.kind = 3 ∧
        f.byte 0 % 8 = 1 ∧ f.byte 1 = e.sequence ∧ f.word 2 = e.peak ∧ f.word 4 = 0 ∧ f.word 6 = 0) ∧
      Changes [.detector, .alert] detectorNotes s t) ∧
    (d.state = .opened → folded ∧ (stays → e.state = .opened) ∧ (¬ stays → e.state = .closing) ∧
      e = { d with state := e.state, peak := e.peak, species := e.species } ∧ Changes [.detector] [] s t) ∧
    (d.state = .closing → stays → folded ∧ e.state = .opened ∧
      e = { d with state := .opened, peak := e.peak, species := e.species } ∧ Changes [.detector] [] s t) ∧
    (d.state = .closing → ¬ stays → folded ∧ e.state = .clear ∧ e.update = none ∧ e.maxOpen = none ∧ updated ∧
      e.sequence = d.sequence ∧ e.dsf = d.dsf ∧ e.travelLost = d.travelLost ∧
      ((s.frames .sight).length < 4 → d.dsf < 65536 → d.sequence < 256 → ∃ f,
        t.frames .sight = s.frames .sight ++ [f] ∧ f.kind = 3 ∧ f.byte 0 % 8 = 3 ∧ f.byte 1 = d.sequence ∧
        f.word 4 = d.dsf ∧ f.word 6 = d.dsf) ∧
      Changes [.detector, .alert] (postNotes .sight) s t)

/-- UPDATE_TIMER_EXPIRY queues UPDATE content of the present sighting, counts it and restarts the timer.
MAX_OPEN_TIMER_EXPIRY ends the sighting: FORCED_CLOSE queued with the length, both timers stopped, and every watched
baseline whose slot is usable seeded afresh. -/
def Obligations.UpdateAndMaxOpenTimersExpire : Prop :=
  ∀ s : State, let d := s.detector
    let queued (t : State) (phase length : Nat) : Prop :=
      s.startup.station ≠ .conflict → (s.frames .sight).length < 4 → d.dsf < 65536 → d.peak < 65536 →
        d.sequence < 256 → ∃ f, t.frames .sight = s.frames .sight ++ [f] ∧ f.kind = 3 ∧ f.station = s.startup.own ∧
        f.index.val = d.sequence % 16 ∧ f.byte 0 % 8 = phase ∧ (f.byte 0).testBit 4 = d.species.pm ∧
        (f.byte 0).testBit 5 = d.species.no2 ∧ (f.byte 0).testBit 7 = d.travelLost ∧ f.byte 1 = d.sequence ∧
        f.word 2 = d.peak ∧ f.word 4 = d.dsf ∧ f.word 6 = length
    (d.update.isSome = true → ∃ t, exec .updateTimerExpiry s = .next t ∧
      t.detector = { d with update := some 250 } ∧ t.cell .updatesQueued = (s.cell .updatesQueued).add 1 ∧
      queued t 2 0 ∧ Changes [.detector, .alert] (.counter .updatesQueued :: postNotes .sight) s t) ∧
    (d.maxOpen.isSome = true → ∃ t, exec .maxOpenTimerExpiry s = .next t ∧
      t.detector.state = .clear ∧ t.detector.update = none ∧ t.detector.maxOpen = none ∧
      t.detector.sequence = d.sequence ∧ t.detector.dsf = d.dsf ∧ t.detector.peak = d.peak ∧
      t.detector.species = d.species ∧ t.detector.travelLost = d.travelLost ∧
      (∀ i : Fin 16, t.detector.baselines[i] = if s.watched i ∧ (s.slotValue i).isSome then
        { value := (s.slotValue i).getD 0, seeded := true } else d.baselines[i]) ∧
      t.cell .forcedCloses = (s.cell .forcedCloses).add 1 ∧ queued t 4 d.dsf ∧
      Changes [.detector, .alert] (.counter .forcedCloses :: postNotes .sight) s t)

/-! ## The plume timeline -/

/-- SIGHT_TAKEN on a SIGHT that creates no record: on another role than INLET it is discarded, an unusable phase is
counted, a position unset or an empty mask is ignored and counted, and a held key is refined by its phase, with the PLUME
state judged at the end. -/
def Obligations.SightRefinesAHeldRecord : Prop :=
  ∀ (s : State) (f : Frame) (rest : List Frame), Delivered s 3 f rest →
    let phase := f.byte 0 % 8
    let closes := phase = 3 ∨ phase = 4
    let pm := (f.byte 0).testBit 4 && s.cfg.timeline.mask.pm
    let no2 := (f.byte 0).testBit 5 && s.cfg.timeline.mask.no2
    let ignored := s.cfg.timeline.geometry[s.startup.own] = none ∨ s.cfg.timeline.geometry[f.station] = none ∨
      (pm = false ∧ no2 = false)
    let refined (x : PlumeRecord) : PlumeRecord :=
      if phase = 1 then x
      else
        { x with
          peak := max x.peak (min 4000 (f.word 2)), species := ⟨x.species.pm || pm, x.species.no2 || no2⟩
          length := if closes ∧ x.length = none then some (f.word 6) else x.length
          dt := if closes ∧ x.length = none then some ((max 0 x.offset).toNat + s.cfg.timeline.tailMargin) else x.dt
          background := x.background || decide (phase = 4 ∧ x.length = none) }
    ∃ t, exec .sightTaken s = .next t ∧ t.receive.queue = rest ∧
      (s.startup.role ≠ .inlet → Changes [.queue] [] s t) ∧
      (s.startup.role = .inlet → (phase < 1 ∨ 4 < phase) → t.cell .unknownKinds = (s.cell .unknownKinds).add 1 ∧
        Changes [.queue, .alert] [.counter .unknownKinds, .flag .counterRollover] s t) ∧
      (s.startup.role = .inlet → 1 ≤ phase → phase ≤ 4 → ignored → t.cell .ignored = (s.cell .ignored).add 1 ∧
        Changes [.queue, .alert] [.counter .ignored, .flag .counterRollover] s t) ∧
      (∀ r, s.startup.role = .inlet → 1 ≤ phase → phase ≤ 4 → ¬ ignored →
        s.findRecord f.station (f.byte 1) = some r →
        t.timeline.records = (s.timeline.records.map fun x =>
          if x.origin = f.station ∧ x.sequence = f.byte 1 then refined x else x).filter
            (fun x => ¬ (x.length.isSome ∧ x.dt = some 0)) ∧
        (phase = 1 ∨ (closes ∧ r.length.isSome) → t.cell .duplicates = (s.cell .duplicates).add 1) ∧
        (¬ (phase = 1 ∨ (closes ∧ r.length.isSome)) → t.cell .duplicates = s.cell .duplicates) ∧
        PlumeJudged [.queue, .alert] [.counter .duplicates, .flag .counterRollover] false s t ∧
        Changes (.queue :: .plumes :: .plumeHold :: .demands :: selectionParts) (.counter .duplicates :: holdNotes) s t)

/-- SIGHT_TAKEN on an accepted SIGHT whose key is not held: the record R76 gives takes its place in the order, and on a full
timeline the weakest APPROACHING record, the newest of those (log 28), makes room for a stronger one, or the SIGHT is
dropped. A record that is created has the PLUME state judged at the end. -/
def Obligations.SightCreatesARecord : Prop :=
  ∀ (s : State) (f : Frame) (rest : List Frame) (own org : Nat), Delivered s 3 f rest → s.startup.role = .inlet →
    let phase := f.byte 0 % 8
    let closes := phase = 3 ∨ phase = 4
    let pm := (f.byte 0).testBit 4 && s.cfg.timeline.mask.pm
    let no2 := (f.byte 0).testBit 5 && s.cfg.timeline.mask.no2
    let o : Int := (own : Int) - (org : Int)
    let df := (max 0 o).toNat - f.word 4
    let peak := min 4000 (f.word 2)
    let new : PlumeRecord :=
      { origin := f.station, sequence := f.byte 1, species := ⟨pm, no2⟩, peak := peak, offset := o, df := df
        length := if closes then some (f.word 6) else none
        dt := if closes then some ((max 0 o).toNat + s.cfg.timeline.tailMargin) else none
        background := decide (phase = 4)
        phase := if df = 0 then .engulfed
          else if s.tracker.state ≠ .tracking ∨ (f.byte 0).testBit 7 = true ∨ df ≤ s.timeline.lead then .armed
          else .approaching
        ageMs := 0, engulfMs := if df = 0 then some 0 else none, created := s.timeline.nextCreated }
    let held (x : PlumeRecord) : Bool := !(x.length.isSome && decide (x.dt = some 0))
    let judged (t : State) : Prop := PlumeJudged [.queue, .alert]
      [.counter .created, .counter .evicted, .flag .counterRollover] (decide (new.phase ≠ .approaching)) s t
    1 ≤ phase → phase ≤ 4 → s.cfg.timeline.geometry[s.startup.own] = some own →
    s.cfg.timeline.geometry[f.station] = some org → (pm = true ∨ no2 = true) →
    s.findRecord f.station (f.byte 1) = none →
    ∃ t, exec .sightTaken s = .next t ∧ t.receive.queue = rest ∧
      (s.timeline.records.length < 12 → t.cell .created = (s.cell .created).add 1 ∧
        t.cell .evicted = s.cell .evicted ∧ t.cell .dropped = s.cell .dropped ∧
        t.timeline.records.Perm ((new :: s.timeline.records).filter held) ∧ judged t) ∧
      (∀ v ∈ s.timeline.records, 12 ≤ s.timeline.records.length → v.phase = .approaching →
        (∀ w ∈ s.timeline.records, w.phase = .approaching →
          w = v ∨ v.peak < w.peak ∨ (v.peak = w.peak ∧ w.created < v.created)) → v.peak < peak →
        t.cell .evicted = (s.cell .evicted).add 1 ∧ t.cell .created = (s.cell .created).add 1 ∧
        t.cell .dropped = s.cell .dropped ∧ judged t ∧
        t.timeline.records.Perm ((new :: s.timeline.records.filter fun x =>
          ¬ (x.origin = v.origin ∧ x.sequence = v.sequence)).filter held)) ∧
      (12 ≤ s.timeline.records.length → (∀ w ∈ s.timeline.records, w.phase = .approaching → peak ≤ w.peak) →
        t.cell .dropped = (s.cell .dropped).add 1 ∧ t.flag .timelineOverflow = true ∧
        Changes [.queue, .alert] [.counter .dropped, .flag .timelineOverflow, .flag .counterRollover] s t) ∧
      (RecordsOrdered s → RecordsOrdered t) ∧
      Changes (.queue :: .plumes :: .plumeHold :: .demands :: selectionParts) sightNotes s t

/-- The PLUME state at the end of an event, by the table of R84: raised and counted from OFF when a record became ARMED or
ENGULFED, the post-hold started when none is left, cancelled when one comes. -/
def Obligations.PlumeDemandFollowsTheRecords : Prop :=
  ∀ (s : State) (became : Bool), let t := s.judgePlume became
    let started : Prop :=
      (0 < s.cfg.timeline.postHoldS →
        t.timeline.hold = .postHold ∧ t.timeline.postHold = some (s.cfg.timeline.postHoldS * 1000)) ∧
      (s.cfg.timeline.postHoldS = 0 → t.timeline.hold = .off ∧ t.timeline.postHold = none)
    t.timeline.records = s.timeline.records ∧
    (became = false → s.timeline.hold ≠ .held → t = s) ∧
    (s.timeline.hold = .off → became = true →
      t.cell .plumeClosures = (s.cell .plumeClosures).add 1 ∧ (s.plumeCount = 0 → started) ∧
      (0 < s.plumeCount → t.timeline.hold = .held ∧ t.timeline.postHold = none) ∧
      (s.startup.role = .inlet → s.startup.station ≠ .loading → s.demands.entries.length < 16 →
        s.demands.holds s.startup.own 0 = false → (0 < s.plumeCount ∨ 0 < s.cfg.timeline.postHoldS) →
        ∃ e ∈ t.demands.entries, e.station = s.startup.own ∧ e.source = 0 ∧ e.regime = .recirc ∧
          e.level = s.cfg.timeline.plumeLevel ∧ e.hold = none)) ∧
    (s.timeline.hold = .held → 0 < s.plumeCount → t = s) ∧
    (s.timeline.hold = .held → s.plumeCount = 0 → started ∧ t.cell .plumeClosures = s.cell .plumeClosures) ∧
    (s.timeline.hold = .postHold → became = true → 0 < s.plumeCount →
      t.timeline.hold = .held ∧ t.timeline.postHold = none ∧ t.demands = s.demands)

/-- The caps and the post-hold. APPROACH_CAP_EXPIRY makes an APPROACHING or ARMED record whose age has reached the approach
cap ENGULFED at distance 0, in its place in the order, ENGULF_CAP_EXPIRY removes an ENGULFED one whose engulf time has
reached the engulf cap and counts it, each with the PLUME state judged at the end, and each changes nothing otherwise.
POST_HOLD_EXPIRY withdraws the PLUME entry, and a regime that differs hands on its targets. -/
def Obligations.CapsAndPostHoldExpire : Prop :=
  ∀ (origin : Fin 8) (q : Fin 256) (s : State),
    let approachCap := s.cfg.timeline.approachCapS * 1000
    let engulfCap := s.cfg.timeline.engulfCapS * 1000
    (∃ t, exec (.approachCapExpiry origin q) s = .next t ∧
      (∀ r, s.findRecord origin q.val = some r → r.phase ≠ .engulfed → approachCap ≤ r.ageMs →
        t.timeline.records.Perm (s.timeline.records.map fun y =>
          if y.origin = origin ∧ y.sequence = q.val then
            { y with df := 0, phase := .engulfed, engulfMs := some 0 } else y) ∧
        RecordsOrdered t ∧ PlumeJudged [] [] true s t ∧
        Changes (.plumes :: .plumeHold :: .demands :: selectionParts) holdNotes s t) ∧
      ((∀ r, s.findRecord origin q.val = some r → r.phase = .engulfed ∨ r.ageMs < approachCap) →
        Changes [] [] s t)) ∧
    (∃ t, exec (.engulfCapExpiry origin q) s = .next t ∧
      (∀ r m, s.findRecord origin q.val = some r → r.phase = .engulfed → r.engulfMs = some m → engulfCap ≤ m →
        t.timeline.records =
          s.timeline.records.filter (fun x => ¬ (x.origin = origin ∧ x.sequence = q.val)) ∧
        t.cell .capped = (s.cell .capped).add 1 ∧
        PlumeJudged [.alert] [.counter .capped, .flag .counterRollover] false s t ∧
        Changes (.plumes :: .plumeHold :: .demands :: selectionParts) (.counter .capped :: holdNotes) s t) ∧
      ((∀ r, s.findRecord origin q.val = some r →
        r.phase ≠ .engulfed ∨ ∃ m, r.engulfMs = some m ∧ m < engulfCap) → Changes [] [] s t)) ∧
    (s.timeline.hold = .postHold → s.timeline.postHold.isSome = true → ∃ t, exec .postHoldExpiry s = .next t ∧
      t.timeline.hold = .off ∧ t.timeline.postHold = none ∧
      (s.startup.role = .inlet → s.startup.station ≠ .loading →
        t.demands.entries = s.demands.entries.filter (fun e => ¬ (e.station = s.startup.own ∧ e.source = 0)) ∧
        RegimeSelected t ∧ (t.regime ≠ s.regime → TargetsHanded t)) ∧
      Changes (.plumeHold :: .demands :: selectionParts) rampNotes s t)

/-! ## Demands and the safe-source set -/

/-- An insertion into the demand list: behind every entry of its level or a higher one that stands together at the head,
before the first of a lower level, with the next stamp; a next stamp of 65535 renumbers the held entries first. The order
by level is kept. -/
def Obligations.InsertionKeepsTheListOrder : Prop :=
  ∀ (l : DemandList) (e : DemandEntry), let m := l.insert e
    let base := if l.nextStamp = 65535 then l.entries.length else l.nextStamp
    m.nextStamp = base + 1 ∧
    (∃ before after : List DemandEntry,
      m.entries = before ++ { e with stamp := base } :: after ∧ (∀ x ∈ before, e.level ≤ x.level) ∧
      (∀ x ∈ after.head?, x.level < e.level) ∧
      (l.nextStamp ≠ 65535 → before ++ after = l.entries) ∧
      (l.nextStamp = 65535 → (before ++ after).map (·.stamp) = List.range l.entries.length ∧
        (before ++ after).map (fun x => { x with stamp := 0 }) = l.entries.map fun x => { x with stamp := 0 })) ∧
    (l.entries.Pairwise (fun a b => b.level ≤ a.level) → m.entries.Pairwise (fun a b => b.level ≤ a.level))

/-- DEMAND_TAKEN by the checks and the cases of R95 to R98; the regime is then the one R103 selects, and one that differs
hands on its targets. -/
def Obligations.DemandTakenByTheDemandList : Prop :=
  ∀ (s : State) (f : Frame) (rest : List Frame), Delivered s 5 f rest →
    let n := f.station
    let source := f.index
    let level := f.byte 1
    let discarded := source = 5 ∨ source = 6 ∨ source = 7 ∨ 7 < level ∨
      (1 ≤ level ∧ (f.byte 0 < 1 ∨ 3 < f.byte 0 ∨ f.byte 2 = 0)) ∨ ∃ i, s.peers[n].presence = .silent i
    let key (x : DemandEntry) : Prop := x.station = n ∧ x.source = source
    let new (r : DemandRegime) : DemandEntry :=
      { station := n, source := source, regime := r, level := level, hold := some (f.byte 2 * 1000), stamp := 0 }
    let others (m : Fin 8) (k : Fin 16) : DemandList :=
      { s.demands with entries := s.demands.entries.filter fun x => ¬ (x.station = m ∧ x.source = k) }
    ∃ t, exec .demandTaken s = .next t ∧ t.receive.queue = rest ∧
      (s.startup.role ≠ .inlet → Changes [.queue] [] s t) ∧
      (s.startup.role = .inlet → RegimeSelected t ∧ (t.regime ≠ s.regime → TargetsHanded t)) ∧
      (s.startup.role = .inlet → discarded → t.demands = s.demands ∧
        t.cell .discarded = (s.cell .discarded).add 1 ∧
        Changes (.queue :: selectionParts) (.counter .discarded :: rampNotes) s t) ∧
      (s.startup.role = .inlet → ¬ discarded → level = 0 → t.demands = others n source ∧
        Changes (.queue :: .demands :: selectionParts) rampNotes s t) ∧
      (∀ r, s.startup.role = .inlet → ¬ discarded → 1 ≤ level → demandRegimeCode r = f.byte 0 →
        (∀ old, s.demands.find n source = some old → t.cell .refreshed = (s.cell .refreshed).add 1 ∧
          (old.level = level → t.demands = { s.demands with entries := s.demands.entries.map fun x =>
            if x.station = n ∧ x.source = source then { x with hold := some (f.byte 2 * 1000), regime := r } else x }) ∧
          (old.level ≠ level → t.demands = (others n source).insert (new r)) ∧
          Changes (.queue :: .demands :: selectionParts) (.counter .refreshed :: .flag .counterRollover :: rampNotes) s t) ∧
        ((∀ x ∈ s.demands.entries, ¬ key x) → s.demands.entries.length < 16 →
          t.demands = s.demands.insert (new r) ∧ t.cell .raised = (s.cell .raised).add 1 ∧
          Changes (.queue :: .demands :: selectionParts) (.counter .raised :: rampNotes) s t) ∧
        ((∀ x ∈ s.demands.entries, ¬ key x) → 16 ≤ s.demands.entries.length →
          (∀ v ∈ s.demands.entries, v.hold.isSome = true →
            (∀ w ∈ s.demands.entries, w.hold.isSome = true →
              w = v ∨ v.level < w.level ∨ (v.level = w.level ∧ w.stamp < v.stamp)) → v.level < level →
            t.demands = (others v.station v.source).insert (new r) ∧
            t.cell .demandEvicted = (s.cell .demandEvicted).add 1 ∧ t.cell .raised = (s.cell .raised).add 1 ∧
            Changes (.queue :: .demands :: selectionParts) listNotes s t) ∧
          ((∀ w ∈ s.demands.entries, w.hold.isSome = true → level ≤ w.level) →
            t.demands = s.demands ∧ t.cell .refused = (s.cell .refused).add 1 ∧ t.flag .demandOverflow = true ∧
            Changes (.queue :: selectionParts)
              (.counter .refused :: .flag .demandOverflow :: rampNotes) s t))) ∧
      Changes (.queue :: .demands :: selectionParts) (messageNotes ++ rampNotes) s t

/-- SAFE_TAKEN: on an INLET a SAFE from a SILENT peer is discarded and counted, one with a hold makes or replaces the
sender's member, one with hold 0 removes it; the set's passage from empty sets SAFE_ACTIVE and applies the safe position,
and its passage to empty clears the flag and hands the targets of the regime selected. -/
def Obligations.SafeTakenByTheSafeSourceSet : Prop :=
  ∀ (s : State) (f : Frame) (rest : List Frame), Delivered s 1 f rest →
    let n := f.station
    let silent := ∃ i, s.peers[n].presence = .silent i
    ∃ t, exec .safeTaken s = .next t ∧ t.receive.queue = rest ∧
      (s.startup.role ≠ .inlet → Changes [.queue] [] s t) ∧
      (s.startup.role = .inlet → silent → t.cell .discarded = (s.cell .discarded).add 1 ∧
        Changes [.queue, .alert] [.counter .discarded, .flag .counterRollover] s t) ∧
      (s.startup.role = .inlet → ¬ silent → f.byte 1 = 0 →
        t.safe = { s.safe with remote := s.safe.remote.set n none } ∧
        (s.safe.nonempty = true → t.safe.nonempty = false →
          t.flag .safeActive = false ∧ RegimeSelected t ∧ TargetsHanded t)) ∧
      (s.startup.role = .inlet → ¬ silent → 1 ≤ f.byte 1 →
        t.safe = { s.safe with remote := s.safe.remote.set n (some
          { force := (f.byte 0).testBit 0, rule := (f.byte 0).testBit 1, holdMs := f.byte 1 * 1000 }) } ∧
        (s.safe.nonempty = false → t.flag .safeActive = true ∧ t.regime = .safe ∧
          t.ramps.damper.target = s.cfg.mix.safeDamper ∧ t.ramps.blower.target = s.cfg.mix.safeBlower ∧
          (s.cfg.safeJump = true → t.ramps.damper.output = s.cfg.mix.safeDamper ∧
            t.ramps.blower.output = s.cfg.mix.safeBlower ∧ t.ramps.damper.moving = false ∧
            t.ramps.blower.moving = false))) ∧
      Changes (.queue :: .safeSet :: selectionParts) (.counter .discarded :: safeNotes) s t

/-- DEMAND_HOLD_EXPIRY removes a message entry and counts it as expired; SAFE_HOLD_EXPIRY removes a member at an INLET
outside LOADING without a count; the regime is selected again, its targets are handed on when it differs, and when the set
has become empty whether or not it differs. Without such an entry or member nothing changes. -/
def Obligations.HoldsRunOut : Prop :=
  ∀ (n : Fin 8) (source : Fin 16) (s : State),
    (∃ t, exec (.demandHoldExpiry n source) s = .next t ∧
      (∀ e, s.demands.find n source = some e → e.hold.isSome = true →
        t.demands = { s.demands with
          entries := s.demands.entries.filter fun x => ¬ (x.station = n ∧ x.source = source) } ∧
        t.cell .expired = (s.cell .expired).add 1 ∧
        (s.startup.role = .inlet → s.startup.station ≠ .loading →
          RegimeSelected t ∧ (t.regime ≠ s.regime → TargetsHanded t)) ∧
        Changes (.demands :: selectionParts) (.counter .expired :: rampNotes) s t) ∧
      ((∀ e, s.demands.find n source = some e → e.hold = none) → Changes [] [] s t)) ∧
    (∃ t, exec (.safeHoldExpiry n) s = .next t ∧
      (s.safe.remote[n].isSome = true → s.startup.role = .inlet → s.startup.station ≠ .loading →
        t.safe = { s.safe with remote := s.safe.remote.set n none } ∧
        (t.safe.nonempty = false → t.flag .safeActive = false ∧ RegimeSelected t ∧ TargetsHanded t) ∧
        (t.safe.nonempty = true → Changes [.safeSet] [] s t)) ∧
      (s.safe.remote[n] = none → Changes [] [] s t) ∧
      Changes (.safeSet :: selectionParts) safeNotes s t)

/-! ## Emitters and the door scrub -/

/-- The repeat timers: DEMAND_REPEAT_EXPIRY of a HELD emitter queues its DEMAND again and restarts with a third of the hold
in whole 100 ms; SAFE_REPEAT_EXPIRY queues a SAFE with the reasons that hold now and restarts with 1000 ms. The timers of a
running scrub: SCRUB_TIMER_EXPIRY ends it; CHECK_TIMER_EXPIRY ends it early, counted, in a cab at or below its target
burden, and restarts otherwise. A scrub that ends withdraws its demand. -/
def Obligations.EmitterAndScrubTimersExpire : Prop :=
  (∀ (source : Fin 16) (s : State),
     (∀ r level, emitterDemand s.cfg source = some (r, level) → s.emitters.demand[source].held = true →
       s.emitters.demand[source].timer.isSome = true → ∃ t, exec (.demandRepeatExpiry source) s = .next t ∧
         t.emitters.demand[source] = { held := true, timer := some (s.cfg.demandHoldS * 1000 / 3 / 100 * 100) } ∧
         (∀ m : Fin 16, m ≠ source → t.emitters.demand[m] = s.emitters.demand[m]) ∧
         t.emitters.safe = s.emitters.safe ∧
         (s.startup.station ≠ .conflict → ∃ f, t.frames (.demand source) = [f] ∧ f.kind = 5 ∧ f.index = source ∧
           f.station = s.startup.own ∧ f.data.length = 3 ∧ f.byte 0 = demandRegimeCode r ∧ f.byte 1 = level % 256 ∧
           f.byte 2 = s.cfg.demandHoldS % 256) ∧
         Changes [.emitters, .alert] (postNotes (.demand source)) s t) ∧
     (s.emitters.demand[source].held = false →
       ∃ t, exec (.demandRepeatExpiry source) s = .next t ∧ Changes [] [] s t) ∧
     (s.emitters.safe.held = true → s.emitters.safe.timer.isSome = true → ∃ t, exec .safeRepeatExpiry s = .next t ∧
       t.emitters = { s.emitters with safe := { held := true, timer := some 1000 } } ∧
       (s.startup.station ≠ .conflict → ∃ f, t.frames .safe = [f] ∧ f.kind = 1 ∧ f.station = s.startup.own ∧
         f.data.length = 2 ∧ (f.byte 0).testBit 0 = s.forceRequest ∧ (f.byte 0).testBit 1 = s.ruleSafe ∧
         f.byte 1 = s.cfg.safeHoldS % 256) ∧
       Changes [.emitters, .alert] (postNotes .safe) s t) ∧
     (s.emitters.safe.held = false → ∃ t, exec .safeRepeatExpiry s = .next t ∧ Changes [] [] s t)) ∧
  (∀ s : State, s.scrub.active = true →
     let ended (t : State) : Prop := t.scrub = { active := false, timer := none, check := none } ∧
       t.emitters.safe = s.emitters.safe ∧
       (∀ m : Fin 16, m ≠ 1 → t.emitters.demand[m] = s.emitters.demand[m]) ∧
       (s.emitters.demand[(1 : Fin 16)].held = true →
         t.emitters.demand[(1 : Fin 16)] = { held := false, timer := none }) ∧
       (s.emitters.demand[(1 : Fin 16)].held = false →
         t.emitters.demand[(1 : Fin 16)] = s.emitters.demand[(1 : Fin 16)]) ∧
       (s.emitters.demand[(1 : Fin 16)].held = true → s.startup.station ≠ .conflict →
         ∃ f, t.frames (.demand 1) = [f] ∧ f.kind = 5 ∧ f.index = 1 ∧ f.data.length = 3 ∧ f.byte 1 = 0) ∧
       (s.emitters.demand[(1 : Fin 16)].held = false → t.frames (.demand 1) = s.frames (.demand 1))
     let clean := ∃ b, s.combinedBurden = some b ∧ b ≤ s.cfg.targetBurden
     (s.scrub.timer.isSome = true → ∃ t, exec .scrubTimerExpiry s = .next t ∧ ended t ∧
       Changes [.scrub, .emitters, .alert] (postNotes (.demand 1)) s t) ∧
     (s.scrub.check.isSome = true → clean → ∃ t, exec .checkTimerExpiry s = .next t ∧ ended t ∧
       t.cell .scrubsEndedEarly = (s.cell .scrubsEndedEarly).add 1 ∧
       Changes [.scrub, .emitters, .alert] (.counter .scrubsEndedEarly :: postNotes (.demand 1)) s t) ∧
     (s.scrub.check.isSome = true → ¬ clean → ∃ t, exec .checkTimerExpiry s = .next t ∧
       t.scrub = { s.scrub with check := some 1000 } ∧ Changes [.scrub] [] s t))

/-! ## The mix law -/

/-- The mix law: fresh floor, recirculation wish, fresh and recirculation fraction, damper code and blower code, each by
its formula with its fallback, and the inputs they are formed from: the combined burden is the largest usable burden of the
station's pollutant slots at its home location, and the cabin values are those of the lowest-numbered PRESENT CABIN that
does not announce CONFLICT. The record of a FULL computation holds them too. -/
def Obligations.MixLawFormulas : Prop :=
  ∀ s : State, let m := s.cfg.mix
    let x := s.fullComputation
    let bc := s.cabinBurden.getD s.cfg.targetBurden
    let home : Location := if s.startup.role = .cabin then .cabin else .outside
    let counts (i : Fin 16) (b : Nat) : Prop :=
      (s.cfg.slots[i].kind = .pm ∨ s.cfg.slots[i].kind = .no2 ∨ s.cfg.slots[i].kind = .co2) ∧
      s.cfg.slots[i].location = home ∧ s.sequencer.records[i].seeded = true ∧
      (s.sequencer.records[i].quality = .good ∨ s.sequencer.records[i].quality = .suspect) ∧
      s.sequencer.records[i].burden = some b
    let cab (n : Fin 8) : Prop := ∃ i, s.peers[n].presence = .present i ∧ i.role = .cabin ∧ i.announced ≠ .conflict
    (s.combinedBurden = none ↔ ∀ i b, ¬ counts i b) ∧
    (∀ b, s.combinedBurden = some b ↔ (∃ i, counts i b) ∧ ∀ i c, counts i c → c ≤ b) ∧
    (s.cabinPeer = none ↔ ∀ n, ¬ cab n) ∧ (∀ n, s.cabinPeer = some n ↔ cab n ∧ ∀ m, cab m → n ≤ m) ∧
    (s.cabinPeer = none → s.cabinBurden = none ∧ ∀ k, s.cabinReading k = none) ∧
    (∀ n i, s.cabinPeer = some n → s.peers[n].presence = .present i →
      s.cabinBurden = i.burden ∧ ∀ k, s.cabinReading k = s.peerValue n k .cabin) ∧
    x.kind = .full ∧ x.bo = s.combinedBurden ∧ x.bc = s.cabinBurden ∧ x.co2 = s.cabinReading .co2 ∧
    (s.cabinReading .co2 = none → x.floor = m.fallbackFloor) ∧
    (∀ c, s.cabinReading .co2 = some c → m.co2Low < m.co2High → (c ≤ m.co2Low → x.floor = 0) ∧
      (m.co2High ≤ c → x.floor = 1000) ∧
      (m.co2Low < c → c < m.co2High → x.floor = (c - m.co2Low) * 1000 / (m.co2High - m.co2Low) ∧ x.floor < 1000)) ∧
    (s.combinedBurden = none → x.wish = m.fallbackWish) ∧
    (∀ b, s.combinedBurden = some b → (b ≤ bc → x.wish = 0) ∧
      (bc < b → x.wish = min 1000 ((b - bc) * 1000 / m.band))) ∧
    x.fresh = max x.floor (1000 - x.wish) ∧ x.recirc = 1000 - x.fresh ∧
    x.blower = some (max m.blowerMin (min m.blowerMax (m.blowerBase + (bc - s.cfg.targetBurden) * m.blowerGain / 1000))) ∧
    (∀ a b : Breakpoint,
      (a = m.table.b0 ∧ b = m.table.b1) ∨ (a = m.table.b1 ∧ b = m.table.b2) ∨ (a = m.table.b2 ∧ b = m.table.b3) ∨
        (a = m.table.b3 ∧ b = m.table.b4) →
      m.table.b0.r = 0 → m.table.b0.r < m.table.b1.r → m.table.b1.r < m.table.b2.r → m.table.b2.r < m.table.b3.r →
      m.table.b3.r < m.table.b4.r → (x.recirc = 0 → a = m.table.b0) → (a.r < x.recirc ∨ x.recirc = 0) →
      x.recirc ≤ b.r →
      x.damper = some (a.p + (x.recirc - a.r) * (b.p - a.p) / (b.r - a.r)))

/-- A computation of an INLET in RUNNING: in AUTO the FULL record and both targets, in RECIRC kind, cabin burden and blower
target alone; in FLUSH, SCRUB, SAFE and IDLE, and on every other station, none. -/
def Obligations.ComputationByTheActiveRegime : Prop :=
  ∀ (s : State) (afresh : Bool), let t := s.computeMix afresh
    let works := s.startup.role = .inlet ∧ s.startup.station = .running
    (works → s.regime = .auto → t.mix = s.fullComputation ∧
      (∀ d, t.mix.damper = some d → (afresh = true ∨ s.mix.damper ≠ some d) → t.ramps.damper.target = d) ∧
      (∀ b, t.mix.blower = some b → (afresh = true ∨ s.mix.blower ≠ some b) → t.ramps.blower.target = b) ∧
      (afresh = false → t.mix.damper = s.mix.damper → t.ramps.damper = s.ramps.damper) ∧
      (afresh = false → t.mix.blower = s.mix.blower → t.ramps.blower = s.ramps.blower)) ∧
    (works → s.regime = .recirc →
      t.mix = { s.mix with kind := .blower, bc := s.cabinBurden, blower := t.mix.blower } ∧
      t.mix.blower = s.fullComputation.blower ∧ t.ramps.damper = s.ramps.damper ∧
      (∀ b, t.mix.blower = some b → (afresh = true ∨ s.mix.blower ≠ some b) → t.ramps.blower.target = b)) ∧
    (s.regime ≠ .auto → s.regime ≠ .recirc → t = s) ∧ (¬ works → t = s) ∧
    Changes [.mix, .damper, .blower, .settle, .alert] rampNotes s t

/-! ## The ramp unit -/

/-- A target handed to a sound channel, by the table of R128: OFF takes it at once; a target equal to the output leaves an
IDLE channel as it was and stops a MOVING one where it stands; another starts a move, or retargets one with its timer
running on. At an INLET the damper hands on what that means: its travel is counted; becoming MOVING stops the settle time
and clears STALL, becoming IDLE starts it (that settled is cleared with it is DEDUCED, log 21), and an output changed in
IDLE does both. The blower hands nothing on, and on other roles no target is taken. -/
def Obligations.TargetIsTakenByModeAndState : Prop :=
  (∀ (cfg : RampCfg) (c : Channel) (target : Nat), c.sound → let u := c.take cfg target
    u.target = target ∧ u.sound ∧
    (cfg.mode = .off → u.output = target ∧ u.moving = false ∧ (c.moving = false → target = c.output → u = c)) ∧
    (cfg.mode ≠ .off → u.output = c.output ∧
      (c.moving = false → target = c.output → u = c) ∧
      (c.moving = true → target = c.output → u.moving = false ∧ u.timer = none) ∧
      (target ≠ c.output → u.moving = true ∧ u.origin = c.output ∧
        u.length = (c.output - target) + (target - c.output) ∧ 1 ≤ u.length ∧
        (c.moving = false → u.timer = some cfg.intervalMs) ∧ (c.moving = true → u.timer = c.timer)))) ∧
  (∀ (s : State) (target : Nat), s.startup.role = .inlet → let t := s.takeTarget .damper target
     let c := s.ramps.damper
     let u := t.ramps.damper
     let settling (t : State) : Prop := t.ramps.settle = some 2000 ∧ t.ramps.settled = false
     u = c.take s.cfg.damper target ∧ t.ramps.blower = s.ramps.blower ∧
     (u.output ≠ c.output → t.cell .damperTravel =
       (s.cell .damperTravel).add ((c.output - u.output) + (u.output - c.output))) ∧
     (u.output = c.output → t.cell .damperTravel = s.cell .damperTravel) ∧
     (c.moving = false → u.moving = true →
       t.ramps.settle = none ∧ t.ramps.settled = false ∧ t.flag .stall = false) ∧
     (c.moving = true → u.moving = false → settling t ∧ t.flag .stall = s.flag .stall) ∧
     (c.moving = false → u.moving = false → u.output ≠ c.output → settling t ∧ t.flag .stall = false) ∧
     ((c.moving = true ∧ u.moving = true) ∨ (c.moving = false ∧ u.moving = false ∧ u.output = c.output) →
       t.ramps.settle = s.ramps.settle ∧ t.ramps.settled = s.ramps.settled ∧ t.flag .stall = s.flag .stall) ∧
     Changes [.damper, .settle, .alert] rampNotes s t) ∧
  (∀ (s : State) (target : Nat), s.startup.role = .inlet → s.takeTarget .blower target =
     { s with ramps := { s.ramps with blower := s.ramps.blower.take s.cfg.blower target } }) ∧
  (∀ (s : State) (n : RampName) (target : Nat), s.startup.role ≠ .inlet → s.takeTarget n target = s)

/-- INTERVAL_TIMER_EXPIRY of a MOVING channel: one step toward the target, the even step in LINEAR and the step of the
move's phase in EASED, never beyond it; at the target the channel is IDLE, and short of it the timer restarts; the damper's
codes are counted, and its settle time starts when it stops. On an IDLE channel it changes nothing. SETTLE_TIMER_EXPIRY
makes the damper settled and checks it: on an INLET with an IDLE damper and a GOOD feedback slot STALL follows the
difference against the tolerance, and otherwise it stays. That the settle timer starts with settled cleared, and runs and
makes the damper settled also without a feedback slot, is DEDUCED (log 21). -/
def Obligations.IntervalAndSettleTimersExpire : Prop :=
  (∀ (n : RampName) (s : State), let c := s.ramps.channel n
     let cfg := rampCfg s.cfg n
     let covered := (c.output - c.origin) + (c.origin - c.output)
     let size := if cfg.mode = .linear then cfg.step
       else max 1 (cfg.step * [1, 2, 3, 4, 4, 3, 2, 1].getD (min 7 (8 * covered / c.length)) 1 / 4)
     c.moving = true → c.timer.isSome = true → cfg.mode ≠ .off →
     ∃ t, exec (.intervalTimerExpiry n) s = .next t ∧ let u := t.ramps.channel n
       (c.output ≤ c.target → u.output = min c.target (c.output + size)) ∧
       (c.target < c.output → u.output = max c.target (c.output - size)) ∧
       u.target = c.target ∧ u.origin = c.origin ∧ u.length = c.length ∧
       (u.output = c.target → u.moving = false ∧ u.timer = none) ∧
       (u.output ≠ c.target → u.moving = true ∧ u.timer = some cfg.intervalMs) ∧
       (n = .damper → t.ramps.blower = s.ramps.blower ∧
         (u.output ≠ c.output → t.cell .damperTravel =
           (s.cell .damperTravel).add ((c.output - u.output) + (u.output - c.output))) ∧
         (u.moving = false → t.ramps.settle = some 2000 ∧ t.ramps.settled = false) ∧
         (u.moving = true → t.ramps.settle = s.ramps.settle ∧ t.ramps.settled = s.ramps.settled) ∧
         t.flag .stall = s.flag .stall ∧
         Changes [.damper, .settle, .alert] [.counter .damperTravel, .flag .counterRollover] s t) ∧
       (n = .blower → Changes [.blower] [] s t)) ∧
  (∀ s : State,
     (∀ n : RampName, (s.ramps.channel n).moving = false →
       ∃ t, exec (.intervalTimerExpiry n) s = .next t ∧ Changes [] [] s t) ∧
     (s.ramps.settle.isSome = true → ∃ t, exec .settleTimerExpiry s = .next t ∧
       t.ramps = { s.ramps with settle := none, settled := true } ∧
       (∀ i, s.startup.role = .inlet → s.ramps.damper.moving = false → s.cfg.feedbackSlot = some i →
         s.sequencer.records[i].quality = .good →
         t.flag .stall = decide (s.cfg.stallTolerance <
           (s.sequencer.records[i].value - s.ramps.damper.output) +
             (s.ramps.damper.output - s.sequencer.records[i].value))) ∧
       (s.startup.role ≠ .inlet ∨ s.ramps.damper.moving = true ∨ s.cfg.feedbackSlot = none ∨
         (∃ i, s.cfg.feedbackSlot = some i ∧ s.sequencer.records[i].quality ≠ .good) →
         t.flag .stall = s.flag .stall) ∧
       Changes [.settle, .alert] [.flag .stall] s t))

/-! ## Accounting -/

/-- ACCOUNTING_TIMER_EXPIRY restarts the timer and does the second's work: nothing on a FORWARD; bins, doses and door-open
seconds on a CABIN; the regime second and the filter load on an INLET. -/
def Obligations.AccountingSecondByRole : Prop :=
  ∀ s : State, s.accounting.timer.isSome = true →
    let binOf (b : Nat) : Fin 6 := if b < 250 then 0 else if b < 500 then 1 else if b < 1000 then 2
      else if b < 2000 then 3 else 4
    let burden (g : Exposure) : Option Nat := (s.firstSlot g.kind .cabin).bind s.slotBurden
    let co := (s.firstSlot .pm .outside).bind s.slotValue
    let flow := s.ramps.blower.output * s.cfg.fullFlow / 1023
    let fresh := match s.regime with
      | .auto => s.mix.fresh
      | .recirc | .scrub => 0
      | .flush | .safe | .idle => 1000
    ∃ t, exec .accountingTimerExpiry s = .next t ∧ t.accounting.timer = some 1000 ∧
      (s.startup.role = .forward → Changes [.accountingTimer] [] s t) ∧
      (s.startup.role = .cabin →
        (∀ g : Exposure, (burden g = none → t.cell (.bin g 5) = (s.cell (.bin g 5)).add 1 ∧
            t.cell (.dose g) = s.cell (.dose g) ∧ ∀ k : Fin 6, k ≠ 5 → t.cell (.bin g k) = s.cell (.bin g k)) ∧
          (∀ b, burden g = some b → t.cell (.bin g (binOf b)) = (s.cell (.bin g (binOf b))).add 1 ∧
            t.cell (.dose g) = (s.cell (.dose g)).add b ∧
            ∀ k : Fin 6, k ≠ binOf b → t.cell (.bin g k) = s.cell (.bin g k))) ∧
        (s.anyDoorOpen = true → t.cell .doorOpenSeconds = (s.cell .doorOpenSeconds).add 1) ∧
        (s.anyDoorOpen = false → t.cell .doorOpenSeconds = s.cell .doorOpenSeconds) ∧
        Changes [.accountingTimer, .alert] cabinNotes s t) ∧
      (s.startup.role = .inlet →
        t.cell (.regimeSeconds s.regime) = (s.cell (.regimeSeconds s.regime)).add 1 ∧
        (co = none → Changes [.accountingTimer, .alert] [.counter (.regimeSeconds s.regime), .flag .counterRollover] s t) ∧
        (∀ v, co = some v →
          let product := flow * (fresh * v + (1000 - fresh) * (s.cabinReading .pm).getD 0) * s.cfg.efficiency +
            s.accounting.carry
          let ng := s.accounting.ngAccumulator + product / 1000000
          t.accounting.carry = product % 1000000 ∧ t.accounting.ngAccumulator = ng % 1000000 ∧
          t.accounting.mgCount = min 4294967295 (s.accounting.mgCount + ng / 1000000) ∧
          (t.accounting.mgCount = s.accounting.mgCount → t.flag .filterWorn = s.flag .filterWorn) ∧
          (t.accounting.mgCount ≠ s.accounting.mgCount →
            t.flag .filterWorn = decide (s.cfg.capacityMg ≤ t.accounting.mgCount))) ∧
        Changes [.accountingTimer, .filter, .alert]
          [.counter (.regimeSeconds s.regime), .flag .filterWorn, .flag .counterRollover] s t)

/-! ## Rules -/

/-- The relation of a rule between a and c, while QUIET and, moved by the hysteresis against the release, while FIRING; and
no rule releases while one of its operands is unknown. One rule at a sweep end with both operands known: the tallies of
R155, the firing and the release at their counts, and the rule's flag with them. Either is handed on by the rule's action:
DEMAND as the condition of the source 8 + n, SAFE through the rule safe condition, NONE not at all. A rule that is not
enabled, or has an operand unknown, stays as it was. -/
def Obligations.RulesCompareAndAdvance : Prop :=
  ((∀ (h : Nat) (a c : Int),
     (a < c → ∀ r, relationHolds r false h a c = true ↔ r = .lt ∨ r = .le ∨ r = .ne) ∧
     (a = c → ∀ r, relationHolds r false h a c = true ↔ r = .le ∨ r = .eq ∨ r = .ge) ∧
     (c < a → ∀ r, relationHolds r false h a c = true ↔ r = .gt ∨ r = .ge ∨ r = .ne) ∧
     (relationHolds .ge true h a c = true ↔ c - h ≤ a) ∧ (relationHolds .gt true h a c = true ↔ c - h < a) ∧
     (relationHolds .le true h a c = true ↔ a ≤ c + h) ∧ (relationHolds .lt true h a c = true ↔ a < c + h) ∧
     (relationHolds .eq true h a c = true ↔ a - c ≤ h ∧ c - a ≤ h) ∧ (relationHolds .ne true h a c = true ↔ a ≠ c) ∧
     (∀ r, relationHolds r false h a c = true → relationHolds r true h a c = true) ∧
     (0 ≤ a → c < h → relationHolds .ge true h a c = true)) ∧
   (∀ (s : State) (n : Fin 8),
     s.operandValue s.cfg.rules[n].operandA = none ∨ s.comparandValue s.cfg.rules[n].comparand = none →
     s.evaluateRule n = s)) ∧
  (∀ (s : State) (n : Fin 8), let c := s.cfg.rules[n]
     let t := s.evaluateRule n
     let old := s.rules[n]
     let handed (firing : Bool) : Prop :=
       (∀ r level, c.action = .demand r level →
         (ruleSource n).val = 8 + n.val ∧ ConditionHanded (ruleSource n) r level firing s t) ∧
       (c.action = .safe → SafeReasonHanded { s.safe with rule := t.ruleSafe } s t) ∧
       (c.action = .none → Changes [.rules, .alert] [.flag (.rule n)] s t)
     (t.ruleSafe = true ↔ ∃ m : Fin 8, t.rules[m].firing = true ∧ s.cfg.rules[m].action = .safe) ∧
     (c.enabled = false → t = s) ∧
     (s.operandValue c.operandA = none ∨ s.comparandValue c.comparand = none → t = s) ∧
     (∀ a b, c.enabled = true → s.operandValue c.operandA = some a → s.comparandValue c.comparand = some b →
       let holds := relationHolds c.relation old.firing c.hysteresis a b
       (old.firing = false → holds = true → c.fireCount ≤ old.fireTally + 1 →
         t.rules[n] = { firing := true, fireTally := 0, releaseTally := 0 } ∧ t.flag (.rule n) = true ∧ handed true) ∧
       (old.firing = false → holds = true → old.fireTally + 1 < c.fireCount →
         t = s.setRule n { old with fireTally := old.fireTally + 1 }) ∧
       (old.firing = false → holds = false → t = s.setRule n { old with fireTally := 0 }) ∧
       (old.firing = true → holds = true → t = s.setRule n { old with releaseTally := 0 }) ∧
       (old.firing = true → holds = false → old.releaseTally + 1 < c.releaseCount →
         t = s.setRule n { old with releaseTally := old.releaseTally + 1 }) ∧
       (old.firing = true → holds = false → c.releaseCount ≤ old.releaseTally + 1 →
         t.rules[n] = { firing := false, fireTally := 0, releaseTally := 0 } ∧ t.flag (.rule n) = false ∧
         handed false)) ∧
     (∀ m : Fin 8, m ≠ n → t.rules[m] = s.rules[m]) ∧
     Changes (.rules :: .emitters :: .demands :: .safeSet :: selectionParts)
       (.flag (.rule n) :: .box (.demand (ruleSource n)) :: (forceNotes ++ listNotes)) s t)

/-! ## The air bus link -/

/-- Mailboxes: content queued outside CONFLICT takes its place by R164 (a single mailbox keeps the newest, a FIFO with room
appends, a full ANSWER FIFO discards the new frame, a full SIGHT FIFO gives way by its rule), each loss is counted as
superseded, and in CONFLICT only STATUS is kept. Of several queued UPDATE frames of its sequence a new UPDATE replaces the
oldest, which is the model's choice (log 46). The statement is about content queued by `State.post`; the answer that
accepts a RESET ALL, which CONFLICT keeps too, is queued another way (log 18) and has its own statement. -/
def Obligations.ContentTakesItsPlaceInItsMailbox : Prop :=
  ∀ (s : State) (b : Box) (f : Frame), let t := s.post b f
    let old := s.frames b
    let update (g : Frame) : Prop := g.byte 0 % 8 = 2
    (s.startup.station = .conflict → b ≠ .status → t = s) ∧
    (s.startup.station ≠ .conflict ∨ b = .status →
      (b ≠ .sight → b ≠ .answer → t.frames b = [f] ∧
        (old = [] → Changes [] [.box b] s t) ∧ (old ≠ [] → t.cell .superseded = (s.cell .superseded).add 1)) ∧
      (b = .sight → old.length < 4 → t.frames b = old ++ [f] ∧ Changes [] [.box b] s t) ∧
      (b = .answer → old.length < 16 → t.frames b = old ++ [f] ∧ Changes [] [.box b] s t) ∧
      (b = .answer → 16 ≤ old.length → t.frames b = old ∧ t.cell .superseded = (s.cell .superseded).add 1) ∧
      (b = .sight → 4 ≤ old.length → t.cell .superseded = (s.cell .superseded).add 1 ∧
        (∀ before g after, old = before ++ g :: after → update f → update g → g.byte 1 = f.byte 1 →
          (∀ x ∈ before, ¬ (update x ∧ x.byte 1 = f.byte 1)) → t.frames b = before ++ f :: after) ∧
        (∀ before g after, old = before ++ g :: after → update g → (∀ x ∈ before, ¬ update x) →
          (update f → ∀ x ∈ old, update x → x.byte 1 ≠ f.byte 1) → t.frames b = before ++ after ++ [f]) ∧
        ((∀ x ∈ old, ¬ update x) → t.frames b = old.drop 1 ++ [f])) ∧
      Changes [.alert] (postNotes b) s t)

/-- Every event ends with the choice of R165: with no frame on offer, none may be offered. A choice takes a frame with the
lowest identifier among the oldest frame of each mailbox that the station state and the link state let be offered. -/
def Obligations.TheLowestIdentifierIsOffered : Prop :=
  (∀ (c : Instr) (s t : State), exec c s = .next t → t.transmit.offer = none → t.offerable = []) ∧
  (∀ (s : State) (b : Box) (h : Held), (b, h) ∈ s.offerable ↔
    (s.transmit.boxes.held b).head? = some h ∧ s.startup.station ≠ .loading ∧
    (s.startup.station = .conflict → b = .status ∨ b = .answer) ∧ s.link.state ≠ .withdrawn ∧
    (s.link.state = .passive → (∀ n, b ≠ .reading n) ∧
      (b = .answer → ∃ x ∈ s.transmit.boxes.answer, x.acceptsReset = true))) ∧
  (∀ s : State, s.transmit.offer = none → let t := s.chooseOffer
    (s.offerable = [] → t = s) ∧
    (∀ x ∈ s.offerable, ∃ y ∈ s.offerable, t.transmit.offer = some y.2.frame ∧
      (∀ z ∈ s.offerable, y.2.frame.id ≤ z.2.frame.id)) ∧
    Changes [] [] s t)

/-- SENT for a frame on offer that is not the ACCEPTED of a RESET ALL: it leaves its mailbox unless newer content took its
place, is counted, and the score falls by 1, below 96 back to ACTIVE. For that ACCEPTED the reset is carried out within the
event (log 19). For an abandoned frame nothing leaves, in LOADING the link state and the flags stay too, and with no frame
outstanding nothing changes (log 14). -/
def Obligations.SentRemovesTheFrame : Prop :=
  ∀ s : State,
    let counted (f : Frame) (t : State) : Prop :=
      t.cell .framesSent = (s.cell .framesSent).add 1 ∧
      t.cell .hushSent = (if f.kind = 2 then (s.cell .hushSent).add 1 else s.cell .hushSent) ∧
      t.link.score = s.link.score - 1 ∧
      (s.link.state = .passive → s.link.score - 1 < 96 → t.link.state = .active ∧ t.flag .linkPassive = false) ∧
      (s.link.state ≠ .passive ∨ 96 ≤ s.link.score - 1 →
        t.link.state = s.link.state ∧ t.flag .linkPassive = s.flag .linkPassive) ∧
      (∀ c : Counter, c ≠ .framesSent → c ≠ .hushSent → t.cell c = s.cell c) ∧
      (∀ g : Flag, g ≠ .linkPassive → g ≠ .counterRollover → t.flag g = s.flag g)
    (∀ f, s.transmit.abandoned = [] → s.transmit.offer = some f →
      (s.transmit.boxes.acceptOffered = false → ∃ t, exec .sent s = .next t ∧ counted f t ∧
        (∀ b, t.frames b = ((s.transmit.boxes.held b).filter fun h => !h.offered).map (·.frame)) ∧
        Only [.boxes, .offer, .counters, .flagBits, .alert, .score, .linkState] s t) ∧
      (s.transmit.boxes.acceptOffered = true → exec .sent s = .next (State.afterReset s.pins s.pending))) ∧
    (∀ f rest, s.transmit.abandoned = f :: rest → s.startup.station ≠ .loading →
      ∃ t, exec .sent s = .next t ∧ counted f t ∧ t.transmit.abandoned = rest ∧
        Changes [.abandoned, .score, .linkState, .alert] (.flag .linkPassive :: sentNotes) s t) ∧
    (∀ f rest, s.transmit.abandoned = f :: rest → s.startup.station = .loading →
      ∃ t, exec .sent s = .next t ∧ t.link.score = s.link.score - 1 ∧ t.transmit.abandoned = rest ∧
        t.cell .framesSent = (s.cell .framesSent).add 1 ∧
        t.cell .hushSent = (if f.kind = 2 then (s.cell .hushSent).add 1 else s.cell .hushSent) ∧
        Changes [.abandoned, .score] [.counter .framesSent, .counter .hushSent] s t) ∧
    (s.transmit.abandoned = [] → s.transmit.offer = none → ∃ t, exec .sent s = .next t ∧ Changes [] [] s t)

/-- ARBITRATION_LOST for a frame on offer: every frame stays and the score too. FAILED: every frame stays, the failure is
counted and the score rises by 8; from 96 the link is PASSIVE and from 192 WITHDRAWN, with every mailbox emptied and the
withdrawal timer started. For an abandoned frame (log 14) the mailboxes stay, but for the withdrawal it may bring, and in
LOADING the link state and the flags stay too. The first outcome for the ACCEPTED of a RESET ALL, and a withdrawal that
removes it, carry the reset out within the event (log 19). WITHDRAWAL_TIMER_EXPIRY: score 0, ACTIVE, LINK_WITHDRAWN clear,
the waiting content kept and offered. With no frame outstanding LOST and FAILED change nothing (log 14). -/
def Obligations.LostAndFailedFramesStayUntilAWithdrawal : Prop :=
  (∀ s : State, let score := min 255 (s.link.score + 8)
     let scored (t : State) : Prop := t.link.score = score ∧
       t.cell .sendFailures = (s.cell .sendFailures).add 1 ∧ (∀ b, t.frames b = s.frames b) ∧
       (s.link.state = .active → 96 ≤ score → t.link.state = .passive ∧ t.flag .linkPassive = true) ∧
       (s.link.state ≠ .active ∨ score < 96 →
         t.link.state = s.link.state ∧ t.flag .linkPassive = s.flag .linkPassive) ∧
       Notes [.counter .sendFailures, .flag .linkPassive, .flag .counterRollover] s t
     let withdrawn (t : State) : Prop := t.link.score = score ∧ t.link.state = .withdrawn ∧
       t.link.withdrawal = some 2000 ∧ t.cell .sendFailures = (s.cell .sendFailures).add 1 ∧
       t.cell .withdrawals = (s.cell .withdrawals).add 1 ∧ t.flag .linkWithdrawn = true ∧
       t.flag .linkPassive = false ∧ (∀ b, t.frames b = []) ∧ t.transmit.offer = none
     (∀ f, s.transmit.abandoned = [] → s.transmit.offer = some f →
       (s.transmit.boxes.acceptOffered = false → ∃ t, exec .arbitrationLost s = .next t ∧
         (∀ b, t.frames b = s.frames b) ∧ Only [.offer] s t ∧ Notes [] s t) ∧
       (s.transmit.boxes.acceptOffered = false → (s.link.state = .withdrawn ∨ score < 192) →
         ∃ t, exec .failed s = .next t ∧ scored t ∧
           Only [.offer, .counters, .flagBits, .alert, .score, .linkState] s t) ∧
       (s.transmit.boxes.holdsAccept = false → s.link.state ≠ .withdrawn → 192 ≤ score →
         ∃ t, exec .failed s = .next t ∧ withdrawn t ∧
           Only [.boxes, .offer, .counters, .flagBits, .alert, .score, .linkState, .withdrawal] s t) ∧
       (s.transmit.boxes.acceptOffered = true →
         exec .arbitrationLost s = .next (State.afterReset s.pins s.pending) ∧
         exec .failed s = .next (State.afterReset s.pins s.pending)) ∧
       (s.transmit.boxes.holdsAccept = true → s.link.state ≠ .withdrawn → 192 ≤ score →
         exec .failed s = .next (State.afterReset s.pins s.pending))) ∧
     (∀ f rest, s.transmit.abandoned = f :: rest →
       (∃ t, exec .arbitrationLost s = .next t ∧ t.transmit.abandoned = rest ∧ Changes [.abandoned] [] s t) ∧
       (s.startup.station = .loading → ∃ t, exec .failed s = .next t ∧ t.link.score = score ∧
         t.transmit.abandoned = rest ∧ t.cell .sendFailures = (s.cell .sendFailures).add 1 ∧
         Changes [.abandoned, .score] [.counter .sendFailures] s t) ∧
       (s.startup.station ≠ .loading → (s.link.state = .withdrawn ∨ score < 192) →
         ∃ t, exec .failed s = .next t ∧ scored t ∧ t.transmit.abandoned = rest ∧
           Only [.offer, .abandoned, .counters, .flagBits, .alert, .score, .linkState] s t ∧
           ∀ g, s.transmit.offer = some g → t.transmit.offer = some g) ∧
       (s.startup.station ≠ .loading → s.link.state ≠ .withdrawn → 192 ≤ score →
         (s.transmit.boxes.holdsAccept = true → ∃ t, exec .failed s = .next t ∧ ResetState s t) ∧
         (s.transmit.boxes.holdsAccept = false → ∃ t, exec .failed s = .next t ∧ withdrawn t ∧
           t.transmit.abandoned = rest ++ s.transmit.offer.toList ∧
           Only [.boxes, .offer, .abandoned, .counters, .flagBits, .alert, .score, .linkState, .withdrawal] s t))) ∧
     (s.transmit.abandoned = [] → s.transmit.offer = none →
       (∃ t, exec .arbitrationLost s = .next t ∧ Changes [] [] s t) ∧
       (∃ t, exec .failed s = .next t ∧ Changes [] [] s t))) ∧
  (∀ s : State, s.link.state = .withdrawn → s.link.withdrawal.isSome = true →
     ∃ t, exec .withdrawalTimerExpiry s = .next t ∧ t.link.score = 0 ∧ t.link.state = .active ∧
       t.link.withdrawal = none ∧ t.flag .linkWithdrawn = false ∧ (t.transmit.offer = none → t.offerable = []) ∧
       Changes [.score, .linkState, .withdrawal, .alert] [.flag .linkWithdrawn] s t)

/-- STATUS_TIMER_EXPIRY queues STATUS as it stands and restarts; READING_TIMER_EXPIRY queues one READING for each published
slot of the sweep range, outside CONFLICT, and restarts. The bits of STATUS byte 0 that no field has are sent 0 (log 38). -/
def Obligations.RoutineTimersQueueStatusAndReadings : Prop :=
  ∀ s : State,
    (s.link.status.isSome = true → ∃ t, exec .statusTimerExpiry s = .next t ∧
      t.link.status = some (if s.startup.station = .conflict then 5000
        else s.cfg.statusInterval * s.stretch.interval.factor * 100) ∧
      (∃ f, t.frames .status = [f] ∧ f.kind = 6 ∧ f.index = 0 ∧ f.station = s.startup.own ∧ f.data.length = 8 ∧
        f.byte 0 = roleCode s.startup.role + 16 * stationCode s.startup.station ∧
        f.byte 1 = (regimeCode s.activeRegime).val ∧
        (s.ramps.damper.output < 65536 → f.word 2 = s.ramps.damper.output) ∧
        (s.combinedBurden = none → f.word 4 = 65535) ∧
        (∀ b, s.combinedBurden = some b → b < 65536 → f.word 4 = b) ∧ f.byte 6 = s.summary ∧
        f.byte 7 = if s.startup.station = .conflict then 50
          else min 255 (s.cfg.statusInterval * s.stretch.interval.factor)) ∧
      Changes [.statusTimer, .alert] (postNotes .status) s t) ∧
    (s.link.reading.isSome = true → ∃ t, exec .readingTimerExpiry s = .next t ∧
      t.link.reading = some (s.cfg.readingInterval * s.stretch.interval.factor * 100) ∧
      (∀ i : Fin 16, s.startup.station ≠ .conflict → inSweep s.cfg i = true → s.cfg.slots[i].publish = true →
        ∃ f, t.frames (.reading i) = [f] ∧ f.kind = 7 ∧ f.index = i ∧ f.station = s.startup.own ∧
          f.data.length = 5 ∧ f.byte 0 = kindCode s.cfg.slots[i].kind + 8 * locationCode s.cfg.slots[i].location +
            32 * qualityCode s.sequencer.records[i].quality ∧
          (s.sequencer.records[i].value < 65536 → f.word 1 = s.sequencer.records[i].value) ∧
          (s.slotBurden i = none → f.word 3 = 65535) ∧ ∀ b, s.slotBurden i = some b → b < 65536 → f.word 3 = b) ∧
      (∀ i : Fin 16, s.startup.station = .conflict ∨ inSweep s.cfg i = false ∨ s.cfg.slots[i].publish = false →
        t.frames (.reading i) = s.frames (.reading i)) ∧
      Changes [.readingTimer, .alert] (((List.finRange 16).map fun i => Note.box (.reading i)) ++
        [.counter .superseded, .flag .counterRollover]) s t)

/-- FRAME_RECEIVED with a frame of another station: the acceptance table decides; an accepted frame joins the receive
queue, a full queue giving way only to a SAFE, and crowding is answered with a HUSH paced by the guard. -/
def Obligations.ReceivedFrameIsFilteredAndQueued : Prop :=
  ∀ (f : Frame) (s : State), f.station ≠ s.startup.own → s.startup.station ≠ .loading →
    let matched := ∃ i : Fin 16, s.cfg.accept[i].enabled = true ∧
      f.id &&& s.cfg.accept[i].mask = s.cfg.accept[i].value &&& s.cfg.accept[i].mask
    let q := s.receive.queue
    let overflowed (t : State) : Prop :=
      t.cell .receiveOverflows = (s.cell .receiveOverflows).add 1 ∧ t.flag .rxqOverflow = true
    let unanswered := q.length + 1 < 12 ∨ s.startup.station = .conflict ∨
      (∃ g, s.receive.guard = some g ∧ (g.four = true ∨ q.length + 1 < 16))
    let answers := 12 ≤ q.length + 1 ∧ s.startup.station ≠ .conflict ∧
      (s.receive.guard = none ∨ (∃ g, s.receive.guard = some g ∧ g.four = false ∧ 16 ≤ q.length + 1))
    ∃ t, exec (.frameReceived f) s = .next t ∧
      (¬ matched → t.cell .rejected = (s.cell .rejected).add 1 ∧
        Changes [.alert] [.counter .rejected, .flag .counterRollover] s t) ∧
      (matched → t.cell .accepted = (s.cell .accepted).add 1 ∧
        (q.length < 16 → t.receive.queue = q ++ [f] ∧ t.cell .receiveOverflows = s.cell .receiveOverflows ∧
          t.flag .rxqOverflow = s.flag .rxqOverflow) ∧
        (16 ≤ q.length → overflowed t) ∧
        (16 ≤ q.length → (f.kind ≠ 1 ∨ ∀ g ∈ q, g.kind = 1) → t.receive.queue = q) ∧
        (∀ before g after, 16 ≤ q.length → f.kind = 1 → q = before ++ g :: after → (∀ x ∈ before, x.kind = 1) →
          g.kind ≠ 1 → t.receive.queue = before ++ after ++ [f]) ∧
        (unanswered → t.receive.guard = s.receive.guard ∧ t.stretch = s.stretch ∧ t.peers = s.peers ∧
          t.frames .hush = s.frames .hush) ∧
        (answers → let factor := if 16 ≤ q.length + 1 then 4 else 2
          t.receive.guard = some { four := decide (16 ≤ q.length + 1), leftMs := 2000 } ∧
          (∃ h, t.frames .hush = [h] ∧ h.kind = 2 ∧ h.station = s.startup.own ∧ h.data.length = 2 ∧
            h.byte 0 = factor ∧ h.byte 1 = 20) ∧
          t.stretch = { s.stretch with peer :=
            { factor := max s.stretch.peer.factor factor
              left := some (max (s.stretch.peer.left.getD 0) 2000) } })) ∧
      Changes [.queue, .guard, .peers, .stretch, .alert] frameNotes s t

/-- FRAME_RECEIVED with a frame bearing the own number: outside CONFLICT the station enters CONFLICT, its mailboxes but
STATUS emptied, its STATUS slowed, its detector, emitters and scrub stopped, and an INLET safe; the frame is not counted. In
CONFLICT, and with any frame in LOADING, nothing changes. A pending RESET ALL whose ACCEPTED is removed is carried out in the event (log 19).
That the status timer restarts with its whole 5000 ms is the model's choice (log 17). -/
def Obligations.OwnNumberMakesTheConflict : Prop :=
  ∀ (f : Frame) (s : State),
    (s.startup.station = .loading → ∃ t, exec (.frameReceived f) s = .next t ∧ Changes [] [] s t) ∧
    (f.station = s.startup.own → s.startup.station = .conflict →
      ∃ t, exec (.frameReceived f) s = .next t ∧ Changes [] [] s t) ∧
    (f.station = s.startup.own → (s.startup.station = .joining ∨ s.startup.station = .running) →
      (s.transmit.boxes.holdsAccept = true → ∃ t, exec (.frameReceived f) s = .next t ∧ ResetState s t) ∧
      (s.transmit.boxes.holdsAccept = false → ∃ t, exec (.frameReceived f) s = .next t ∧
        t.startup.station = .conflict ∧ t.startup.joining = none ∧ t.flag .conflict = true ∧
        (∀ b, t.frames b = if b = .status then s.frames b else []) ∧
        t.link.status = some 5000 ∧ t.link.reading = none ∧
        t.detector = { s.detector with state := .clear, update := none, maxOpen := none } ∧
        (∀ n : Fin 16, t.emitters.demand[n] = { held := false, timer := none }) ∧
        t.emitters.safe = { held := false, timer := none } ∧
        t.scrub = { active := false, timer := none, check := none } ∧
        (s.startup.role = .inlet → t.safe = { s.safe with conflict := true } ∧
          (s.safe.nonempty = false → t.regime = .safe ∧ t.flag .safeActive = true ∧
            t.ramps.damper.target = s.cfg.mix.safeDamper ∧ t.ramps.blower.target = s.cfg.mix.safeBlower)) ∧
        (s.startup.role ≠ .inlet → t.safe = s.safe ∧ t.regime = s.regime ∧ t.ramps = s.ramps) ∧
        (∀ c : Counter, s.startup.role ≠ .inlet ∨ c ≠ .damperTravel → t.cell c = s.cell c) ∧
        (∀ g : Flag, g ≠ .conflict → s.startup.role ≠ .inlet ∨ (g ≠ .safeActive ∧ g ≠ .stall ∧ g ≠ .counterRollover) →
          t.flag g = s.flag g) ∧
        Only (.station :: .joining :: .detector :: .emitters :: .scrub :: .safeSet :: .counters :: .flagBits :: .boxes ::
          .offer :: .statusTimer :: .readingTimer :: selectionParts) s t))

/-- HUSH_TAKEN counts a hush heard; a factor below 2 changes nothing else, and another raises both parts of the stretch to
the larger factor and the later end, marking exactly the records of PRESENT peers that are stale already (log 25) and
leaving every other field of the peer table as it was. GUARD_EXPIRY stops the guard.
STRETCH_END returns a running part to factor 1 with no end; when f falls, a PRESENT peer whose last status time has reached
its shorter limit goes SILENT and the others stay. -/
def Obligations.HushGuardAndStretch : Prop :=
  (∀ (s : State) (f : Frame) (rest : List Frame), Delivered s 2 f rest →
     let factor := if f.byte 0 < 4 then 2 else 4
     let duration := max 1 (min 100 (f.byte 1)) * 100
     let raised (p : StretchFactor) : StretchFactor :=
       { factor := max p.factor factor, left := some (max (p.left.getD 0) duration) }
     ∃ t, exec .hushTaken s = .next t ∧ t.receive.queue = rest ∧ t.cell .hushHeard = (s.cell .hushHeard).add 1 ∧
       (f.byte 0 < 2 → Changes [.queue, .alert] [.counter .hushHeard, .flag .counterRollover] s t) ∧
       (2 ≤ f.byte 0 → t.stretch = { peer := raised s.stretch.peer, interval := raised s.stretch.interval } ∧
         ∀ n : Fin 8,
           (∀ i, s.peers[n].presence = .present i → t.peers[n] =
             { s.peers[n] with presence := .present { i with readings := i.readings.map fun r =>
               { r with stale := r.stale || decide (s.cfg.staleTimeMs * s.stretch.peer.factor ≤ r.ageMs) } } }) ∧
           ((∀ i, s.peers[n].presence ≠ .present i) → t.peers[n] = s.peers[n])) ∧
       Changes [.queue, .peers, .stretch, .interval, .alert] [.counter .hushHeard, .flag .counterRollover] s t) ∧
  (∀ s : State,
     (s.receive.guard.isSome = true → ∃ t, exec .guardExpiry s = .next t ∧ t.receive.guard = none ∧
       Changes [.guard] [] s t) ∧
     (s.stretch.interval.left.isSome = true → ∃ t, exec (.stretchEnd .interval) s = .next t ∧
       t.stretch = { s.stretch with interval := { factor := 1, left := none } } ∧ Changes [.interval] [] s t) ∧
     (s.stretch.peer.left.isSome = true → ∃ t, exec (.stretchEnd .peer) s = .next t ∧
       t.stretch = { s.stretch with peer := { factor := 1, left := none } } ∧
       LimitsFell s t ∧
       Changes (.stretch :: .peers :: .demands :: .safeSet :: selectionParts) silentNotes s t))

/-- FRAME_DISCARDED takes the head of the queue away when no owner takes it: too short, or of kind 0 or 10 to 15, it is
counted as an unknown kind; an ANSWER, a message the role does not take, and a REQUEST for another station are not (log
33). A head that has an owner stays. -/
def Obligations.FrameDiscardedByTheDispatcher : Prop :=
  ∀ (s : State) (f : Frame) (rest : List Frame), s.receive.queue = f :: rest → s.startup.station ≠ .loading →
    let unknown := f.kind = 0 ∨ 10 ≤ f.kind ∨ (f.kind ≠ 9 ∧ f.data.length < payloadLength f.kind)
    let unowned := f.kind = 9 ∨ ((f.kind = 1 ∨ f.kind = 3 ∨ f.kind = 5) ∧ s.startup.role ≠ .inlet) ∨
      (f.kind = 8 ∧ f.byte 0 ≠ s.startup.own.val)
    ∃ t, exec .frameDiscarded s = .next t ∧
      (unknown → t.receive.queue = rest ∧ t.cell .unknownKinds = (s.cell .unknownKinds).add 1 ∧
        Changes [.queue, .alert] [.counter .unknownKinds, .flag .counterRollover] s t) ∧
      (¬ unknown → unowned → t.receive.queue = rest ∧ Changes [.queue] [] s t) ∧
      (¬ unknown → ¬ unowned → (f.kind ≠ 8 ∨ s.startup.station ≠ .conflict) → Changes [] [] s t)

/-! ## Requests -/

/-- QUERY on an empty ANSWER FIFO queues a snapshot, one frame per item up to 16, numbered from 0 with the last mark on the
last; each frame is the data item of its row in the table of R179, with its code and its fields, saturated or absent, packed
in order. A group with no items is answered ACCEPTED. While a drain runs the QUERY is answered BUSY and counted. -/
def Obligations.QueryAnswersWithASnapshot : Prop :=
  ∀ (s : State) (f : Frame) (rest : List Frame), Asked s 0 f rest → f.byte 1 ≤ 13 →
    let rows := (answerRows s (f.byte 1)).take 16
    ∃ t, exec .query s = .next t ∧ t.receive.queue = rest ∧
      (s.frames .answer = [] → rows ≠ [] → (t.frames .answer).length = rows.length ∧
        (∀ (k : Nat) (a : Frame) (row : ItemRow), (t.frames .answer)[k]? = some a → rows[k]? = some row →
          a.kind = 9 ∧ a.index.val = k ∧ a.station = s.startup.own ∧ a.data.length = 8 ∧
          a.byte 0 = f.station.val + (if k + 1 = rows.length then 128 else 0) ∧ CarriesItem a row) ∧
        Changes [.queue] [.box .answer] s t) ∧
      (s.frames .answer = [] → rows = [] → Answered s t f 1 ∧ Changes [.queue, .alert] answerNotes s t ∧
        ∀ a ∈ t.frames .answer, a.word 3 = 0 ∧ a.word 5 = 0) ∧
      (s.frames .answer ≠ [] → t.cell .superseded = (s.cell .superseded).add 1 ∧
        ((s.frames .answer).length < 16 → ∃ a : Frame, t.frames .answer = s.frames .answer ++ [a] ∧ a.kind = 9 ∧
          a.index = 0 ∧ a.byte 0 = f.station.val + 128 ∧ a.byte 2 = 2) ∧
        (16 ≤ (s.frames .answer).length → t.frames .answer = s.frames .answer)) ∧
      Changes [.queue, .alert] answerNotes s t

/-- The clears, the lamp test and the unknown request, each answered with one frame: CLEAR_COUNTERS zeroes the named group,
CLEAR_FLAGS clears the latched flags its mask names, CLEAR_FILTER (not moving) empties the filter load of an INLET,
LAMP_TEST lights the lamp, and a request outside the table is answered UNKNOWN and changes nothing. -/
def Obligations.ClearsAndLampTestAreCarriedOut : Prop :=
  ∀ (s : State) (f : Frame) (rest : List Frame), let argument := f.byte 1
    let named (c : Counter) : Prop := argument = 255 ∨
      ((groupRange argument).1 ≤ c.index.val ∧ c.index.val < (groupRange argument).1 + (groupRange argument).2)
    (Asked s 1 f rest → (argument ≤ 8 ∨ argument = 255) → ∃ t, exec .clearCounters s = .next t ∧
      t.receive.queue = rest ∧ (∀ c, named c → t.cell c = { count := 0, rollover := false }) ∧
      (∀ c, ¬ named c → c ≠ .superseded → t.cell c = s.cell c) ∧
      ((s.frames .answer).length < 16 → Answered s t f 1 ∧ t.flags = s.flags ∧
        ∀ c, ¬ named c → t.cell c = s.cell c) ∧
      (16 ≤ (s.frames .answer).length → t.frames .answer = s.frames .answer) ∧
      (∀ b, b ≠ .answer → t.frames b = s.frames b) ∧ (∀ g : Flag, g ≠ .counterRollover → t.flag g = s.flag g) ∧
      Only [.queue, .counters, .boxes, .offer, .flagBits, .alert] s t) ∧
    (Asked s 2 f rest → ∃ t, exec .clearFlags s = .next t ∧ t.receive.queue = rest ∧ Answered s t f 1 ∧
      (∀ i : Fin 7, argument.testBit i.val = true → t.flag (latchedFlags.getD i.val .lampTest) = false) ∧
      (∀ g : Flag, g ≠ .counterRollover → (∀ i : Fin 7, argument.testBit i.val = true →
        g ≠ latchedFlags.getD i.val .lampTest) → t.flag g = s.flag g) ∧
      Changes [.queue, .alert] ([.flag .rxqOverflow, .flag .timelineOverflow, .flag .demandOverflow,
        .flag .travelDiscontinuity, .flag .peerLost, .flag .lampTest] ++ answerNotes) s t) ∧
    (Asked s 3 f rest → s.moving = false → ∃ t, exec .clearFilter s = .next t ∧ t.receive.queue = rest ∧
      Answered s t f 1 ∧
      (s.startup.role = .inlet → t.accounting.carry = 0 ∧ t.accounting.ngAccumulator = 0 ∧ t.accounting.mgCount = 0 ∧
        t.flag .filterWorn = decide (s.cfg.capacityMg ≤ 0)) ∧
      (s.startup.role ≠ .inlet → Changes [.queue, .alert] answerNotes s t) ∧
      Changes [.queue, .filter, .alert] (.flag .filterWorn :: answerNotes) s t) ∧
    (Asked s 5 f rest → ∃ t, exec .lampTest s = .next t ∧ t.receive.queue = rest ∧ Answered s t f 1 ∧
      t.flag .lampTest = true ∧ t.flags.alert = true ∧ t.summary.testBit 6 = true ∧
      Changes [.queue, .alert] (.flag .lampTest :: answerNotes) s t) ∧
    (∀ code, Asked s code f rest →
      (6 ≤ code ∨ (code = 0 ∧ 13 < argument) ∨ (code = 1 ∧ 8 < argument ∧ argument ≠ 255) ∨ (code = 4 ∧ 3 < argument)) →
      ∃ t, exec .unknownRequest s = .next t ∧ t.receive.queue = rest ∧ Answered s t f 4 ∧
        Changes [.queue, .alert] answerNotes s t)

/-- The resets of a truck that is not moving: RESET_LINK empties the link and keeps its routine timers and the frame that
accepts it, and a fall of the stretch factor measures the peers against their shorter limits; RESET_PLUME empties the timeline of an INLET and ends the sighting of a FORWARD; RESET_DEMANDS leaves an INLET
the local entries and members, and hands the targets of its regime afresh; RESET_ALL waits for the outcome of its ACCEPTED
frame, or comes at once without room, also with the mark already set (log 35). A reset is carried out within the event that
triggers it (log 19). -/
def Obligations.ResetScopesAreCarriedOut : Prop :=
  ∀ (s : State) (f : Frame) (rest : List Frame), s.moving = false →
    (Asked s 4 f rest → f.byte 1 = 0 →
      (s.transmit.boxes.holdsAccept = true → ∃ t, exec .resetLink s = .next t ∧ ResetState s t) ∧
      (s.transmit.boxes.holdsAccept = false → ∃ t, exec .resetLink s = .next t ∧
        t.receive.queue = [] ∧ t.receive.guard = none ∧ t.link.score = 0 ∧ t.link.state = .active ∧
        t.link.withdrawal = none ∧ t.flag .linkPassive = false ∧ t.flag .linkWithdrawn = false ∧
        t.stretch = { peer := { factor := 1, left := none }, interval := { factor := 1, left := none } } ∧
        (∀ b, b ≠ .answer → t.frames b = []) ∧
        ((s.frames .answer).length < 16 → ∃ a, t.frames .answer = [a] ∧ a.kind = 9 ∧ a.byte 2 = 1 ∧
          a.byte 0 = f.station.val + 8 * 4 + 128) ∧
        (16 ≤ (s.frames .answer).length → t.frames .answer = []) ∧
        t.cell .superseded =
          (if 16 ≤ (s.frames .answer).length then (s.cell .superseded).add 1 else s.cell .superseded) ∧
        LimitsFell s t ∧
        (s.stretch.peer.factor ≤ 1 → t.peers = s.peers ∧ t.demands = s.demands ∧ t.safe = s.safe ∧ t.regime = s.regime ∧
          t.mix = s.mix ∧ t.ramps = s.ramps) ∧
        (∀ c : Counter, c ≠ .superseded → s.stretch.peer.factor ≤ 1 ∨ (c ≠ .purged ∧ c ≠ .damperTravel) →
          t.cell c = s.cell c) ∧
        (∀ g : Flag, g ≠ .linkPassive → g ≠ .linkWithdrawn → g ≠ .counterRollover →
          s.stretch.peer.factor ≤ 1 ∨ (g ≠ .peerLost ∧ g ≠ .safeActive ∧ g ≠ .stall) → t.flag g = s.flag g) ∧
        Only (.queue :: .guard :: .boxes :: .offer :: .abandoned :: .counters :: .flagBits :: .score :: .linkState ::
          .withdrawal :: .stretch :: .interval :: .peers :: .demands :: .safeSet :: selectionParts) s t)) ∧
    (Asked s 4 f rest → f.byte 1 = 1 → ∃ t, exec .resetPlume s = .next t ∧ t.receive.queue = rest ∧
      Answered s t f 1 ∧
      (s.startup.role = .inlet → t.timeline.records = [] ∧ t.timeline.hold = .off ∧ t.timeline.lead = s.timeline.lead ∧
        t.detector = s.detector ∧ (s.timeline.hold ≠ .off → t.timeline.postHold = none ∧ t.demands.entries =
          s.demands.entries.filter (fun e => ¬ (e.station = s.startup.own ∧ e.source = 0)))) ∧
      (s.startup.role = .forward →
        t.detector = { s.detector with state := .clear, update := none, maxOpen := none } ∧
        Changes [.queue, .detector, .alert] answerNotes s t) ∧
      (s.startup.role = .cabin → Changes [.queue, .alert] answerNotes s t) ∧
      Changes (.queue :: .detector :: .plumes :: .plumeHold :: .demands :: selectionParts) (answerNotes ++ rampNotes) s t) ∧
    (Asked s 4 f rest → f.byte 1 = 2 → ∃ t, exec .resetDemands s = .next t ∧ t.receive.queue = rest ∧
      Answered s t f 1 ∧
      (s.startup.role ≠ .inlet → Changes [.queue, .alert] answerNotes s t) ∧
      (s.startup.role = .inlet → (∀ e ∈ t.demands.entries, e.station = s.startup.own ∧ e.hold = none) ∧
        (t.demands.holds s.startup.own 0 = true ↔ s.timeline.hold ≠ .off) ∧
        (t.demands.holds s.startup.own 2 = true ↔ s.recircSwitch = true) ∧
        (t.demands.holds s.startup.own 3 = true ↔ s.flushSwitch = true) ∧
        (∀ n : Fin 8, t.demands.holds s.startup.own (ruleSource n) = true ↔
          s.rules[n].firing = true ∧ s.cfg.rules[n].action.isDemand = true) ∧
        t.safe = { s.safe with remote := t.safe.remote } ∧ (∀ n : Fin 8, t.safe.remote[n] = none) ∧
        (s.safe.nonempty = true → t.safe.nonempty = false → t.flag .safeActive = false) ∧ RegimeSelected t ∧
        TargetsHanded t) ∧
      Changes (.queue :: .demands :: .safeSet :: selectionParts) (answerNotes ++ resetNotes) s t) ∧
    (Delivered s 8 f rest → f.index.val = 4 → f.byte 0 = s.startup.own.val → f.byte 1 = 3 →
      ((s.frames .answer).length < 16 → ∃ t, exec .resetAll s = .next t ∧ t.receive.queue = rest ∧
        t.startup.pendingReset = true ∧ Answered s t f 1 ∧
        Changes [.queue, .pendingReset] [.box .answer] s t) ∧
      (16 ≤ (s.frames .answer).length → ∃ t, exec .resetAll s = .next t ∧ ResetState s t))

/-- What turns a request away: a RESET of any scope and a CLEAR_FILTER on a moving truck are answered REFUSED_MOVING; a
REQUEST for another station, and every one but a RESET ALL in CONFLICT, is discarded without an answer. -/
def Obligations.RequestsAreTurnedAway : Prop :=
  ∀ (s : State) (f : Frame) (rest : List Frame),
    let refused (c : Instr) : Prop := ∃ t, exec c s = .next t ∧ t.receive.queue = rest ∧ Answered s t f 3 ∧
      Changes [.queue, .alert] answerNotes s t
    let dropped (c : Instr) : Prop := ∃ t, exec c s = .next t ∧ t.receive.queue = rest ∧ Changes [.queue] [] s t
    let asks (code : Nat) (argument : Nat) : Prop := f.index.val = code ∧ f.byte 1 = argument
    (s.tracker.state = .tracking → 10 ≤ s.tracker.speed →
      (Asked s 3 f rest → refused .clearFilter) ∧
      (Asked s 4 f rest → f.byte 1 = 0 → refused .resetLink) ∧
      (Asked s 4 f rest → f.byte 1 = 1 → refused .resetPlume) ∧
      (Asked s 4 f rest → f.byte 1 = 2 → refused .resetDemands) ∧
      (Asked s 4 f rest → f.byte 1 = 3 → refused .resetAll)) ∧
    (Delivered s 8 f rest → (f.byte 0 ≠ s.startup.own.val ∨ (s.startup.station = .conflict ∧ ¬ asks 4 3)) →
      (f.index.val = 0 → f.byte 1 ≤ 13 → dropped .query) ∧
      (f.index.val = 1 → (f.byte 1 ≤ 8 ∨ f.byte 1 = 255) → dropped .clearCounters) ∧
      (f.index.val = 2 → dropped .clearFlags) ∧ (f.index.val = 3 → dropped .clearFilter) ∧
      (asks 4 0 → dropped .resetLink) ∧ (asks 4 1 → dropped .resetPlume) ∧ (asks 4 2 → dropped .resetDemands) ∧
      (asks 4 3 → dropped .resetAll) ∧ (f.index.val = 5 → dropped .lampTest) ∧
      (6 ≤ f.index.val → dropped .unknownRequest) ∧ dropped .frameDiscarded)

/-! ## Conditions every step keeps -/

/-- The state after a reset meets every condition of this section, whatever the pins. -/
def Obligations.ResetMeetsTheConditions : Prop :=
  ∀ (p : Pins) (q : List Instr), let s := State.afterReset p q
    AlertFollows s ∧ LinkBounded s ∧ ListsBounded s ∧ RecordsOrdered s ∧ SafePosition s ∧ ChannelsSound s ∧ LevelFlags s ∧
    QuietWhenSilenced s ∧ ConflictMailboxes s ∧ PlumeFollows s

/-- Every step keeps the flags with their conditions: the ALERT pin asserted exactly while a set flag has class LAMP, and
the level flags of the safe-source set, the station state, the link and the rules set exactly while their conditions
hold. -/
def Obligations.EveryStepKeepsTheFlags : Prop :=
  (∀ s t, AlertFollows s → step s = .next t → AlertFollows t) ∧
  (∀ s t, LevelFlags s → step s = .next t → LevelFlags t)

/-- Every step keeps the link in its bounds: the capacities of the queue, the FIFOs and the score; no frame on offer while
WITHDRAWN or in LOADING; nothing but STATUS and answers (log 18) held in CONFLICT. -/
def Obligations.EveryStepKeepsTheLinkInItsBounds : Prop :=
  (∀ s t, LinkBounded s → step s = .next t → LinkBounded t) ∧
  (∀ s t, QuietWhenSilenced s → step s = .next t → QuietWhenSilenced t) ∧
  (∀ s t, ConflictMailboxes s → step s = .next t → ConflictMailboxes t)

/-- Every step keeps the owners' lists: their capacities, the plume records in the order of their front distances and their
creation, and the PLUME state HELD exactly while some record is ARMED or ENGULFED. -/
def Obligations.EveryStepKeepsTheLists : Prop :=
  (∀ s t, ListsBounded s → step s = .next t → ListsBounded t) ∧
  (∀ s t, RecordsOrdered s → step s = .next t → RecordsOrdered t) ∧
  (∀ s t, PlumeFollows s → step s = .next t → PlumeFollows t)

/-- Every step keeps the safe position: while the safe-source set of an INLET is non-empty, its regime is SAFE and both
channel targets are the safe codes. -/
def Obligations.EveryStepKeepsTheSafePosition : Prop :=
  ∀ s t, SafePosition s → step s = .next t → SafePosition t

/-- Every step keeps both channels sound: IDLE exactly at the target, the interval timer running exactly while MOVING. -/
def Obligations.EveryStepKeepsTheChannelsSound : Prop :=
  ∀ s t, ChannelsSound s → step s = .next t → ChannelsSound t
end

