-- ==== Sys2Proof/Laws/Only.lean ====
section
/-! SUPPORT. The algebra of frames: `Only` is reflexive, composes, and grows with its list. -/

namespace Sys2Proof.Machine

open Sys2Proof

theorem Part.same_refl (p : Part) (s : State) : p.same s s := by
  cases p <;> first | rfl | exact ⟨rfl, rfl⟩ | exact ⟨rfl, rfl, rfl⟩

theorem Part.same_trans {p : Part} {s t u : State} (h : p.same s t) (k : p.same t u) : p.same s u := by
  cases p <;> simp only [Part.same] at h k ⊢ <;>
    first
      | exact k.trans h
      | exact ⟨k.1.trans h.1, k.2.trans h.2⟩
      | exact ⟨k.1.trans h.1, k.2.1.trans h.2.1, k.2.2.trans h.2.2⟩

theorem Only.refl (ps : List Part) (s : State) : Only ps s s := fun p _ => p.same_refl s

theorem Only.mono {ps qs : List Part} {s t : State} (h : Only ps s t) (hsub : ps ⊆ qs) : Only qs s t :=
  fun p hp => h p fun hmem => hp (hsub hmem)

theorem Only.trans {ps : List Part} {s t u : State} (h : Only ps s t) (k : Only ps t u) : Only ps s u :=
  fun p hp => Part.same_trans (h p hp) (k p hp)

theorem Only.append {ps qs : List Part} {s t u : State} (h : Only ps s t) (k : Only qs t u) : Only (ps ++ qs) s u :=
  (h.mono (List.subset_append_left ps qs)).trans (k.mono (List.subset_append_right ps qs))

/-- Two updates, their lists both inside a third. -/
theorem Only.seq {ps qs rs : List Part} {s t u : State} (h : Only ps s t) (k : Only qs t u) (hp : ps ⊆ rs)
    (hq : qs ⊆ rs) : Only rs s u := (h.mono hp).trans (k.mono hq)

theorem Only.ite {ps : List Part} {s t u : State} {c : Prop} [Decidable c] (h : Only ps s t) (k : Only ps s u) :
    Only ps s (if c then t else u) := by split <;> assumption

/-- A fold of updates that each touch only some parts touches only those. -/
theorem Only.foldl {α : Type} {ps : List Part} {f : State → α → State} (h : ∀ s a, Only ps s (f s a)) (l : List α)
    (s : State) : Only ps s (l.foldl f s) := by
  induction l generalizing s with
  | nil => exact Only.refl ps s
  | cons a as ih => exact (h s a).trans (ih (f s a))

end Sys2Proof.Machine
end

