-- ==== Sys2Proof/Laws/Primitives.lean ====
section
/-! SUPPORT. What the plain updates of one block touch, and what counting, flags, mailboxes and the choice of the frame
on offer touch. -/

namespace Sys2Proof.Machine.State

open Sys2Proof

theorem writeFlag_only (s : State) (f : Flag) (b : Bool) : Only [.flagBits, .alert] s (s.writeFlag f b) := by
  intro p hp
  cases p <;> first | rfl | exact ⟨rfl, rfl⟩ | exact ⟨rfl, rfl, rfl⟩ | exact absurd (by decide) hp

theorem decideAlert_only (s : State) : Only [.alert] s (s.decideAlert) := by
  intro p hp
  cases p <;> first | rfl | exact ⟨rfl, rfl⟩ | exact ⟨rfl, rfl, rfl⟩ | exact absurd (by decide) hp

theorem dequeue_only (s : State) : Only [.queue] s (s.dequeue) := by
  intro p hp
  cases p <;> first | rfl | exact ⟨rfl, rfl⟩ | exact ⟨rfl, rfl, rfl⟩ | exact absurd (by decide) hp

theorem setDetector_only (s : State) (d : Detector) : Only [.detector] s (s.setDetector d) := by
  intro p hp
  cases p <;> first | rfl | exact ⟨rfl, rfl⟩ | exact ⟨rfl, rfl, rfl⟩ | exact absurd (by decide) hp

theorem setTracker_only (s : State) (t : Tracker) : Only [.tracker] s (s.setTracker t) := by
  intro p hp
  cases p <;> first | rfl | exact ⟨rfl, rfl⟩ | exact ⟨rfl, rfl, rfl⟩ | exact absurd (by decide) hp

theorem setPresence_only (s : State) (n : Fin 8) (x : Presence) : Only [.peers] s (s.setPresence n x) := by
  intro p hp
  cases p <;> first | rfl | exact ⟨rfl, rfl⟩ | exact ⟨rfl, rfl, rfl⟩ | exact absurd (by decide) hp

theorem raiseTally_only (s : State) (n : Fin 8) : Only [.peers] s (s.raiseTally n) := by
  intro p hp
  cases p <;> first | rfl | exact ⟨rfl, rfl⟩ | exact ⟨rfl, rfl, rfl⟩ | exact absurd (by decide) hp

theorem setRecords_only (s : State) (rs : List PlumeRecord) : Only [.plumes] s (s.setRecords rs) := by
  intro p hp
  cases p <;> first | rfl | exact ⟨rfl, rfl⟩ | exact ⟨rfl, rfl, rfl⟩ | exact absurd (by decide) hp

theorem setHold_only (s : State) (h : PlumeHold) (t : Timer) : Only [.plumeHold] s (s.setHold h t) := by
  intro p hp
  cases p <;> first | rfl | exact ⟨rfl, rfl⟩ | exact ⟨rfl, rfl, rfl⟩ | exact absurd (by decide) hp

theorem setEmitter_only (s : State) (n : Fin 16) (e : Emitter) : Only [.emitters] s (s.setEmitter n e) := by
  intro p hp
  cases p <;> first | rfl | exact ⟨rfl, rfl⟩ | exact ⟨rfl, rfl, rfl⟩ | exact absurd (by decide) hp

theorem setSafeEmitter_only (s : State) (e : Emitter) : Only [.emitters] s (s.setSafeEmitter e) := by
  intro p hp
  cases p <;> first | rfl | exact ⟨rfl, rfl⟩ | exact ⟨rfl, rfl, rfl⟩ | exact absurd (by decide) hp

theorem setRecord_only (s : State) (i : Fin 16) (r : SlotRecord) : Only [.records] s (s.setRecord i r) := by
  intro p hp
  cases p <;> first | rfl | exact ⟨rfl, rfl⟩ | exact ⟨rfl, rfl, rfl⟩ | exact absurd (by decide) hp

theorem setRule_only (s : State) (n : Fin 8) (r : RuleState) : Only [.rules] s (s.setRule n r) := by
  intro p hp
  cases p <;> first | rfl | exact ⟨rfl, rfl⟩ | exact ⟨rfl, rfl, rfl⟩ | exact absurd (by decide) hp

theorem startDwell_only (s : State) (i : Fin 16) : Only [.sweep] s (s.startDwell i) := by
  intro p hp
  cases p <;> first | rfl | exact ⟨rfl, rfl⟩ | exact ⟨rfl, rfl, rfl⟩ | exact absurd (by decide) hp

theorem setFilter_only (s : State) (a b c : Nat) : Only [.filter] s (s.setFilter a b c) := by
  intro p hp
  cases p <;> first | rfl | exact ⟨rfl, rfl⟩ | exact ⟨rfl, rfl, rfl⟩ | exact absurd (by decide) hp

theorem setLink_only (s : State) (n : Nat) (l : LinkState) : Only [.score, .linkState] s (s.setLink n l) := by
  intro p hp
  cases p <;> first | rfl | exact ⟨rfl, rfl⟩ | exact ⟨rfl, rfl, rfl⟩ | exact absurd (by decide) hp

theorem setAbandoned_only (s : State) (l : List Frame) : Only [.abandoned] s (s.setAbandoned l) := by
  intro p hp
  cases p <;> first | rfl | exact ⟨rfl, rfl⟩ | exact ⟨rfl, rfl, rfl⟩ | exact absurd (by decide) hp

theorem setStretch_only (s : State) (x : Stretch) : Only [.stretch, .interval] s (s.setStretch x) := by
  intro p hp
  cases p <;> first | rfl | exact ⟨rfl, rfl⟩ | exact ⟨rfl, rfl, rfl⟩ | exact absurd (by decide) hp

theorem setGuard_only (s : State) (g : Option Guard) : Only [.guard] s (s.setGuard g) := by
  intro p hp
  cases p <;> first | rfl | exact ⟨rfl, rfl⟩ | exact ⟨rfl, rfl, rfl⟩ | exact absurd (by decide) hp

theorem setQueue_only (s : State) (q : List Frame) : Only [.queue] s (s.setQueue q) := by
  intro p hp
  cases p <;> first | rfl | exact ⟨rfl, rfl⟩ | exact ⟨rfl, rfl, rfl⟩ | exact absurd (by decide) hp

theorem bump_only (s : State) (c : Counter) (n : Nat) : Only [.counters, .flagBits, .alert] s (s.bump c n) := by
  unfold bump
  have h : Only [.counters, .flagBits, .alert] s
      { s with accounting := { s.accounting with
          counters := s.accounting.counters.set c.index (s.accounting.counters[c.index].add n) } } := by
    intro p hp
    cases p <;> first | rfl | exact ⟨rfl, rfl⟩ | exact ⟨rfl, rfl, rfl⟩ | exact absurd (by decide) hp
  exact Only.ite h (h.seq (writeFlag_only _ _ _) (by decide) (by decide))

theorem count_only (s : State) (c : Counter) : Only [.counters, .flagBits, .alert] s (s.count c) := bump_only s c 1

theorem hold_only (s : State) (box : Box) (h : Held) : Only [.boxes, .counters, .flagBits, .alert] s (s.hold box h) := by
  have k : Only [.boxes, .counters, .flagBits, .alert] s
      { s with transmit := { s.transmit with boxes := s.transmit.boxes.put box h } } := by
    intro p hp
    cases p <;> first | rfl | exact ⟨rfl, rfl⟩ | exact ⟨rfl, rfl, rfl⟩ | exact absurd (by decide) hp
  unfold hold
  exact Only.ite (k.seq (count_only _ _) (by decide) (by decide)) k

theorem post_only (s : State) (box : Box) (f : Frame) : Only [.boxes, .counters, .flagBits, .alert] s (s.post box f) := by
  unfold post
  exact Only.ite (Only.refl _ _) (hold_only _ _ _)

end Sys2Proof.Machine.State

namespace Sys2Proof.Machine

open Sys2Proof

/-- A held frame without the mark of the frame on offer. -/
def Held.unmarked (h : Held) : Held := { h with offered := false }

theorem Held.unmarked_markOffered (h : Held) : h.markOffered.unmarked = h.unmarked := rfl

theorem unmarked_markHead (l : List Held) : (markHead l).map Held.unmarked = l.map Held.unmarked := by
  cases l <;> rfl

theorem filterMap_unmarked (l : List Held) :
    l.filterMap (fun h => some { h with offered := false }) = l.map Held.unmarked := by
  induction l with
  | nil => rfl
  | cons a l ih => rw [List.filterMap_cons, ih]; rfl

theorem bind_unmarked (o : Option Held) : (o.bind fun h => some { h with offered := false }) = o.map Held.unmarked := by
  cases o <;> rfl

theorem mapVector_toList {α β : Type} {n : Nat} (f : α → β) (v : Vector α n) :
    (mapVector f v).toList = v.toList.map f := by
  simp [mapVector, Vector.toList]

theorem mapVector_get {α β : Type} {n : Nat} (f : α → β) (v : Vector α n) (i : Fin n) :
    (mapVector f v)[i] = f v[i] := by
  simp [mapVector, Fin.getElem_fin]

theorem tabulate_get {α : Type} {n : Nat} (f : Fin n → α) (i : Fin n) : (tabulate f)[i] = f i := by
  simp [tabulate, Fin.getElem_fin]

theorem vector_ext_fin {α : Type} {n : Nat} {v w : Vector α n} (h : ∀ i : Fin n, v[i] = w[i]) : v = w := by
  apply Vector.ext
  intro i hi
  exact h ⟨i, hi⟩

theorem set_get {α : Type} {n : Nat} (v : Vector α n) (i j : Fin n) (x : α) :
    (v.set i x)[j] = if i = j then x else v[j] := by
  simp only [Fin.getElem_fin, Vector.getElem_set, Fin.ext_iff]

/-- Marking the frame on offer changes no held frame. -/
theorem Boxes.keepOffered_mark (b : Boxes) (box : Box) : (b.mark box).keepOffered = b.keepOffered := by
  have hv : ∀ (v : Vector (Option Held) 16) (n : Fin 16),
      mapVector (·.bind fun h => some { h with offered := false }) (v.set n (v[n].map Held.markOffered)) =
        mapVector (·.bind fun h => some { h with offered := false }) v := by
    intro v n
    apply vector_ext_fin
    intro i
    simp only [mapVector_get, set_get]
    split
    · next e => subst e; cases v[n] <;> rfl
    · rfl
  have ho : ∀ o : Option Held, ((o.map Held.markOffered).bind fun h => some { h with offered := false }) =
      (o.bind fun h => some { h with offered := false }) := by
    intro o; cases o <;> rfl
  cases box <;>
    simp only [Boxes.mark, Boxes.keepOffered, Boxes.update, hv, ho, filterMap_unmarked, unmarked_markHead]

theorem State.chooseOffer_only (s : State) : Only [.offer] s s.chooseOffer := by
  unfold State.chooseOffer
  split
  · intro p hp
    cases p <;> first
      | rfl
      | exact ⟨rfl, rfl⟩
      | exact ⟨rfl, rfl, rfl⟩
      | exact Boxes.keepOffered_mark _ _
      | exact absurd (by decide) hp
  · exact Only.refl _ _

/-- What the end of a command touches beside what its effect touches. -/
theorem Only.finish {ps : List Part} {s t u : State} (h : Only ps s t) (e : finish t = .next u) (ho : .offer ∈ ps) :
    Only ps s u := by
  cases e
  exact h.trans (t.chooseOffer_only.mono (by simpa using ho))

end Sys2Proof.Machine
end

