-- ==== Sys2Proof/Laws/Outputs.lean ====
section
/-! SUPPORT. What the ramp unit, the mix law, the demand list and the safe-source set touch. -/

namespace Sys2Proof.Machine

open Sys2Proof

/-- What a change of the ramp channels can touch: with the damper go its settle timer, STALL and the damper travel. -/
abbrev rampParts : List Part := [.damper, .blower, .settle, .counters, .flagBits, .alert]

/-- What a change of the active regime can touch. -/
abbrev regimeParts : List Part := [.regime, .mix, .damper, .blower, .settle, .counters, .flagBits, .alert]

/-- What the demand list can touch. -/
abbrev listParts : List Part := .demands :: regimeParts

/-- What the demand list and the safe-source set can touch. -/
abbrev intakeParts : List Part := .safeSet :: listParts

namespace State

theorem startSettling_only (s : State) : Only [.settle] s s.startSettling := by
  intro p hp
  cases p <;> first | rfl | exact ⟨rfl, rfl⟩ | exact ⟨rfl, rfl, rfl⟩ | exact absurd (by decide) hp

theorem stopSettling_only (s : State) : Only [.settle, .flagBits, .alert] s s.stopSettling := by
  intro p hp
  cases p <;> first | rfl | exact ⟨rfl, rfl⟩ | exact ⟨rfl, rfl, rfl⟩ | exact absurd (by decide) hp

theorem damperChanged_only (s : State) (c d : Channel) :
    Only [.settle, .counters, .flagBits, .alert] s (s.damperChanged c d) := by
  unfold damperChanged
  have ht : Only [.settle, .counters, .flagBits, .alert] s
      (if c.output = d.output then s else s.bump .damperTravel (distance c.output d.output)) :=
    Only.ite (Only.refl _ _) ((bump_only _ _ _).mono (by decide))
  refine Only.ite (Only.ite ht (ht.trans ((stopSettling_only _).mono (by decide)))) (Only.ite ?_ (Only.ite ht ?_))
  · exact ht.trans ((startSettling_only _).mono (by decide))
  · exact ht.trans ((startSettling_only _).seq (writeFlag_only _ _ _) (by decide) (by decide))

theorem putChannel_only (s : State) (n : RampName) (d : Channel) : Only rampParts s (s.putChannel n d) := by
  cases n
  · have h : Only rampParts s { s with ramps := { s.ramps with damper := d } } := by
      intro p hp
      cases p <;>
        first | rfl | exact ⟨rfl, rfl⟩ | exact ⟨rfl, rfl, rfl⟩ | exact absurd (by decide) hp
    exact h.trans ((damperChanged_only _ _ _).mono (by decide))
  · intro p hp
    cases p <;>
      first | rfl | exact ⟨rfl, rfl⟩ | exact ⟨rfl, rfl, rfl⟩ | exact absurd (by decide) hp

theorem takeTarget_only (s : State) (n : RampName) (x : Nat) : Only rampParts s (s.takeTarget n x) := by
  unfold takeTarget
  exact Only.ite (putChannel_only _ _ _) (Only.refl _ _)

theorem takeTargets_only (s : State) (d b : Nat) : Only rampParts s (s.takeTargets d b) :=
  (takeTarget_only _ _ _).trans (takeTarget_only _ _ _)

theorem applySafePosition_only (s : State) : Only rampParts s s.applySafePosition := by
  unfold applySafePosition
  exact Only.ite (Only.refl _ _) (Only.ite ((putChannel_only _ _ _).trans (putChannel_only _ _ _))
    (takeTargets_only _ _ _))

theorem stallCheck_only (s : State) : Only [.flagBits, .alert] s s.stallCheck := by
  unfold stallCheck
  refine Only.ite ?_ (Only.refl _ _)
  split
  · exact Only.refl _ _
  · exact Only.ite (writeFlag_only _ _ _) (Only.refl _ _)

theorem handComputed_only (s : State) (n : RampName) (a : Bool) (x y : Option Nat) :
    Only rampParts s (s.handComputed n a x y) := by
  unfold handComputed
  split
  · exact Only.refl _ _
  · exact Only.ite (takeTarget_only _ _ _) (Only.refl _ _)

theorem setMix_only (s : State) (m : MixRecord) : Only [.mix] s { s with mix := m } := by
  intro p hp
  cases p <;> first | rfl | exact ⟨rfl, rfl⟩ | exact ⟨rfl, rfl, rfl⟩ | exact absurd (by decide) hp

theorem computeMix_only (s : State) (a : Bool) : Only (.mix :: rampParts) s (s.computeMix a) := by
  have hm (m : MixRecord) : Only (.mix :: rampParts) s { s with mix := m } := (setMix_only s m).mono (by decide)
  have hh (t : State) (n : RampName) (x y : Option Nat) : Only (.mix :: rampParts) t (t.handComputed n a x y) :=
    (handComputed_only _ _ _ _ _).mono (by decide)
  unfold computeMix
  refine Only.ite ?_ (Only.refl _ _)
  split
  · exact ((hm _).trans (hh _ _ _ _)).trans (hh _ _ _ _)
  · exact (hm _).trans (hh _ _ _ _)
  all_goals exact Only.refl _ _

theorem mixNotice_only (s : State) : Only (.mix :: rampParts) s s.mixNotice := computeMix_only s false

theorem handTargets_only (s : State) : Only (.mix :: rampParts) s s.handTargets := by
  have ht (d b : Nat) : Only (.mix :: rampParts) s (s.takeTargets d b) := (takeTargets_only s d b).mono (by decide)
  unfold handTargets
  split
  · exact computeMix_only _ _
  · exact ((takeTarget_only _ _ _).mono (by decide)).trans (computeMix_only _ _)
  all_goals exact ht _ _

theorem setRegime_only (s : State) (r : Regime) : Only [.regime] s { s with regime := r } := by
  intro p hp
  cases p <;> first | rfl | exact ⟨rfl, rfl⟩ | exact ⟨rfl, rfl, rfl⟩ | exact absurd (by decide) hp

theorem reselect_only (s : State) : Only regimeParts s s.reselect := by
  have hr : Only regimeParts s { s with regime := s.selectRegime } := (setRegime_only _ _).mono (by decide)
  unfold reselect
  exact Only.ite (Only.refl _ _) (Only.ite (hr.trans ((applySafePosition_only _).mono (by decide)))
    (hr.trans ((handTargets_only _).mono (by decide))))

theorem rederive_only (s : State) : Only regimeParts s s.rederive := by
  have hr : Only regimeParts s { s with regime := s.selectRegime } := (setRegime_only _ _).mono (by decide)
  unfold rederive
  exact Only.ite (Only.refl _ _) (hr.trans ((handTargets_only _).mono (by decide)))

theorem setSafe_only (s : State) (q : SafeSet) : Only (.safeSet :: regimeParts) s (s.setSafe q) := by
  have hq : Only (.safeSet :: regimeParts) s { s with safe := q } := by
    intro p hp
    cases p <;>
      first | rfl | exact ⟨rfl, rfl⟩ | exact ⟨rfl, rfl, rfl⟩ | exact absurd (by decide) hp
  have hw (t : State) (b : Bool) : Only (.safeSet :: regimeParts) t (t.writeFlag .safeActive b) :=
    (writeFlag_only _ _ _).mono (by decide)
  unfold setSafe
  refine Only.ite (Only.refl _ _) ?_
  dsimp only
  split
  · exact ((hq.trans ((setRegime_only _ _).mono (by decide))).trans (hw _ _)).trans
      ((applySafePosition_only _).mono (by decide))
  · exact (hq.trans (hw _ _)).trans ((rederive_only _).mono (by decide))
  · exact hq

theorem setDemands_only (s : State) (l : DemandList) : Only [.demands] s { s with demands := l } := by
  intro p hp
  cases p <;> first | rfl | exact ⟨rfl, rfl⟩ | exact ⟨rfl, rfl, rfl⟩ | exact absurd (by decide) hp

/-- What taking entries in and out touches: the list, its counts, and the flags. -/
abbrev entryParts : List Part := [.demands, .counters, .flagBits, .alert]

theorem setDemandsCount_only (s : State) (l : DemandList) (c : Counter) :
    Only entryParts s (({ s with demands := l } : State).count c) :=
  (setDemands_only s l).seq (count_only _ c) (by decide) (by decide)

theorem insertFor_only (s : State) (v e : DemandEntry) : Only entryParts s (s.insertFor v e) :=
  (setDemandsCount_only s _ _).seq (count_only _ _) (by decide) (by decide)

theorem refuseDemand_only (s : State) : Only entryParts s s.refuseDemand :=
  (count_only _ _).seq (writeFlag_only _ _ _) (by decide) (by decide)

theorem raiseMessage_only (s : State) (e : DemandEntry) : Only entryParts s (s.raiseMessage e) := by
  unfold raiseMessage
  refine Only.ite (setDemandsCount_only _ _ _) ?_
  split
  · exact refuseDemand_only _
  · exact Only.ite (insertFor_only _ _ _) (refuseDemand_only _)

theorem refreshMessage_only (s : State) (o e : DemandEntry) : Only entryParts s (s.refreshMessage o e) := by
  unfold refreshMessage
  exact Only.ite (setDemandsCount_only _ _ _) (setDemandsCount_only _ _ _)

theorem takeDemandEntry_only (s : State) (f : Frame) : Only entryParts s (s.takeDemandEntry f) := by
  unfold takeDemandEntry
  refine Only.ite ((count_only _ _).mono (by decide)) (Only.ite ((setDemands_only _ _).mono (by decide)) ?_)
  split
  · exact Only.refl _ _
  · split
    · exact raiseMessage_only _ _
    · exact refreshMessage_only _ _ _

theorem insertLocal_only (s : State) (n : Fin 16) (r : DemandRegime) (l : Nat) :
    Only entryParts s (s.insertLocal n r l) := by
  unfold insertLocal
  refine Only.ite (Only.refl _ _) (Only.ite (setDemandsCount_only _ _ _) ?_)
  split
  · exact Only.refl _ _
  · exact insertFor_only _ _ _

theorem raiseLocal_only (s : State) (n : Fin 16) (r : DemandRegime) (l : Nat) : Only listParts s (s.raiseLocal n r l) :=
  (insertLocal_only s n r l).seq (reselect_only _) (by decide) (by decide)

theorem withdrawLocal_only (s : State) (n : Fin 16) : Only listParts s (s.withdrawLocal n) := by
  unfold withdrawLocal
  exact Only.ite (Only.refl _ _) ((setDemands_only _ _).seq (reselect_only _) (by decide) (by decide))

theorem setLocal_only (s : State) (n : Fin 16) (r : DemandRegime) (l : Nat) (b : Bool) :
    Only listParts s (s.setLocal n r l b) := by
  unfold setLocal
  exact Only.ite (raiseLocal_only _ _ _ _) (withdrawLocal_only _ _)

theorem takeSafe_only (s : State) (f : Frame) : Only intakeParts s (s.takeSafe f) := by
  unfold takeSafe
  exact Only.ite ((count_only _ _).mono (by decide))
    (Only.ite ((setSafe_only _ _).mono (by decide)) ((setSafe_only _ _).mono (by decide)))

theorem purgePeer_only (s : State) (n : Fin 8) : Only intakeParts s (s.purgePeer n) := by
  unfold purgePeer
  refine Only.ite (Only.refl _ _) ?_
  exact ((((setDemands_only s _).mono (by decide)).trans ((bump_only _ _ _).mono (by decide))).trans
    ((reselect_only _).mono (by decide))).trans ((setSafe_only _ _).mono (by decide))

theorem insertRule_only (s : State) (n : Fin 8) : Only entryParts s (s.insertRule n) := by
  unfold insertRule
  split
  · exact Only.ite (insertLocal_only _ _ _ _) (Only.refl _ _)
  all_goals exact Only.refl _ _

theorem insertLocals_only (s : State) : Only entryParts s s.insertLocals := by
  unfold insertLocals
  dsimp only
  have ha : Only entryParts s (if s.timeline.hold = .off then s else s.insertLocal 0 .recirc s.cfg.timeline.plumeLevel) :=
    Only.ite (Only.refl _ _) (insertLocal_only _ _ _ _)
  refine Only.trans ?_ (Only.foldl insertRule_only _ _)
  refine Only.ite (Only.trans ?_ (insertLocal_only _ _ _ _)) ?_ <;>
    exact Only.ite (ha.trans (insertLocal_only _ _ _ _)) ha

theorem dropRemote_only (s : State) : Only [.safeSet, .flagBits, .alert] s s.dropRemote := by
  have h : Only [.safeSet, .flagBits, .alert] s { s with safe := s.safe.localOnly } := by
    intro p hp
    cases p <;> first | rfl | exact ⟨rfl, rfl⟩ | exact ⟨rfl, rfl, rfl⟩ | exact absurd (by decide) hp
  unfold dropRemote
  exact Only.ite (h.trans ((writeFlag_only _ _ _).mono (by decide))) h

theorem resetDemands_only (s : State) : Only intakeParts s s.resetDemands := by
  unfold resetDemands
  refine Only.ite (Only.refl _ _) ?_
  exact ((((setDemands_only s _).mono (by decide)).trans ((insertLocals_only _).mono (by decide))).trans
    ((dropRemote_only _).mono (by decide))).trans ((rederive_only _).mono (by decide))

end State
end Sys2Proof.Machine
end

