-- ==== Sys2Proof/Laws/Owners.lean ====
section
/-! SUPPORT. What the emitters, the timeline, the detector, the peer table, the tracker, the rules, the sequencer, the
input unit and the accounting unit touch. -/

namespace Sys2Proof.Machine

open Sys2Proof

/-- What queuing content touches. -/
abbrev postParts : List Part := [.boxes, .counters, .flagBits, .alert]

/-- What the emitters touch. -/
abbrev emitterParts : List Part := .emitters :: postParts

/-- What a condition handed to the demand and safe logic can touch, whatever the role. -/
abbrev conditionParts : List Part := .emitters :: .boxes :: intakeParts

/-- What the plume timeline touches, with the demand list its PLUME entry enters. -/
abbrev plumeParts : List Part := .plumes :: .lead :: .plumeHold :: listParts

/-- What a travel notice can touch. -/
abbrev travelParts : List Part := .detector :: plumeParts

/-- What the peer table touches, with the purge and the cabin notice. -/
abbrev peerParts : List Part := .peers :: intakeParts

namespace State

/-! ## Emitters and door scrub -/

theorem emitterBegins_only (s : State) (n : Fin 16) : Only emitterParts s (s.emitterBegins n) := by
  unfold emitterBegins
  split
  · exact Only.refl _ _
  · exact Only.ite ((setEmitter_only _ _ _).seq (post_only _ _ _) (by decide) (by decide)) (Only.refl _ _)

theorem emitterEnds_only (s : State) (n : Fin 16) : Only emitterParts s (s.emitterEnds n) := by
  unfold emitterEnds
  exact Only.ite ((setEmitter_only _ _ _).seq (post_only _ _ _) (by decide) (by decide)) (Only.refl _ _)

theorem safeReasonsChanged_only (s : State) : Only emitterParts s s.safeReasonsChanged := by
  have h (e : Emitter) (f : Frame) : Only emitterParts s ((s.setSafeEmitter e).post .safe f) :=
    (setSafeEmitter_only _ _).seq (post_only _ _ _) (by decide) (by decide)
  unfold safeReasonsChanged
  exact Only.ite (Only.refl _ _) (Only.ite (Only.ite (Only.refl _ _) (h _ _)) (Only.ite (h _ _) (Only.refl _ _)))

theorem conditionChanged_only (s : State) (n : Fin 16) (r : DemandRegime) (l : Nat) (b : Bool) :
    Only conditionParts s (s.conditionChanged n r l b) := by
  unfold conditionChanged
  exact Only.ite ((setLocal_only _ _ _ _ _).mono (by decide))
    (Only.ite ((emitterBegins_only _ _).mono (by decide)) ((emitterEnds_only _ _).mono (by decide)))

theorem forceChanged_only (s : State) : Only conditionParts s s.forceChanged := by
  unfold forceChanged
  exact Only.ite ((setSafe_only _ _).mono (by decide)) ((safeReasonsChanged_only _).mono (by decide))

theorem ruleSafeChanged_only (s : State) : Only conditionParts s s.ruleSafeChanged := by
  unfold ruleSafeChanged
  exact Only.ite ((setSafe_only _ _).mono (by decide)) ((safeReasonsChanged_only _).mono (by decide))

theorem emitterTakes_only (s : State) (n : Fin 16) : Only emitterParts s (s.emitterTakes n) := by
  unfold emitterTakes
  exact Only.ite (emitterBegins_only _ _) (Only.refl _ _)

theorem emittersTake_only (s : State) : Only emitterParts s s.emittersTake :=
  (Only.foldl emitterTakes_only _ _).trans (safeReasonsChanged_only _)

theorem setScrub_only (s : State) (x : Scrub) : Only [.scrub] s { s with scrub := x } := by
  intro p hp
  cases p <;> first | rfl | exact ⟨rfl, rfl⟩ | exact ⟨rfl, rfl, rfl⟩ | exact absurd (by decide) hp

theorem startScrub_only (s : State) : Only (.scrub :: emitterParts) s s.startScrub :=
  (((setScrub_only s _).mono (by decide)).trans ((count_only _ _).mono (by decide))).trans
    ((emitterBegins_only _ _).mono (by decide))

theorem endScrub_only (s : State) : Only (.scrub :: emitterParts) s s.endScrub :=
  (setScrub_only s _).seq (emitterEnds_only _ _) (by decide) (by decide)

theorem doorsChanged_only (s : State) : Only (.scrub :: emitterParts) s s.doorsChanged := by
  unfold doorsChanged
  exact Only.ite (Only.ite (endScrub_only _) (Only.refl _ _)) (Only.ite (startScrub_only _) (Only.refl _ _))

/-! ## Plume timeline -/

theorem raisePlume_only (s : State) : Only (.plumeHold :: listParts) s s.raisePlume :=
  (((setHold_only s _ _).mono (by decide)).trans ((count_only _ _).mono (by decide))).trans
    ((raiseLocal_only _ _ _ _).mono (by decide))

theorem withdrawPlume_only (s : State) : Only (.plumeHold :: listParts) s s.withdrawPlume :=
  (setHold_only s _ _).seq (withdrawLocal_only _ _) (by decide) (by decide)

theorem startPostHold_only (s : State) : Only (.plumeHold :: listParts) s s.startPostHold := by
  unfold startPostHold
  exact Only.ite (withdrawPlume_only _) ((setHold_only _ _ _).mono (by decide))

theorem judgePlume_only (s : State) (b : Bool) : Only (.plumeHold :: listParts) s (s.judgePlume b) := by
  unfold judgePlume
  dsimp only
  have ht : Only (.plumeHold :: listParts) s
      (match s.timeline.hold with
      | .off => if b then s.raisePlume else s
      | .postHold => if b then s.setHold .held none else s
      | .held => s) := by
    split
    · exact Only.ite (raisePlume_only _) (Only.refl _ _)
    · exact Only.ite ((setHold_only _ _ _).mono (by decide)) (Only.refl _ _)
    · exact Only.refl _ _
  exact Only.ite (ht.trans (startPostHold_only _)) ht

theorem judge_after {s t : State} (h : Only plumeParts s t) (b : Bool) : Only plumeParts s (t.judgePlume b) :=
  h.trans ((judgePlume_only t b).mono (by decide))

theorem refineSight_only (s : State) (r : PlumeRecord) (m : Sight) : Only plumeParts s (s.refineSight r m) := by
  unfold refineSight
  apply judge_after
  exact Only.ite ((setRecords_only _ _).seq (count_only _ _) (by decide) (by decide))
    ((setRecords_only _ _).mono (by decide))

theorem setPlumes_only (s : State) (rs : List PlumeRecord) (n : Nat) :
    Only [.plumes] s { s with timeline := { s.timeline with records := rs, nextCreated := n } } := by
  intro p hp
  cases p <;> first | rfl | exact ⟨rfl, rfl⟩ | exact ⟨rfl, rfl, rfl⟩ | exact absurd (by decide) hp

theorem createRecord_only (s : State) (m : Sight) (o : Int) : Only plumeParts s (s.createRecord m o) :=
  judge_after ((setPlumes_only s _ _).seq (count_only _ _) (by decide) (by decide)) _

theorem dropSight_only (s : State) : Only plumeParts s s.dropSight :=
  (count_only _ _).seq (writeFlag_only _ _ _) (by decide) (by decide)

theorem admitSight_only (s : State) (m : Sight) (o : Int) : Only plumeParts s (s.admitSight m o) := by
  unfold admitSight
  refine Only.ite (createRecord_only _ _ _) ?_
  split
  · exact dropSight_only _
  · refine Only.ite ?_ (dropSight_only _)
    exact (((setRecords_only s _).mono (by decide)).trans ((count_only _ _).mono (by decide))).trans
      (createRecord_only _ _ _)

theorem takeSight_only (s : State) (m : Sight) : Only plumeParts s (s.takeSight m) := by
  unfold takeSight
  split
  · exact (count_only _ _).mono (by decide)
  · refine Only.ite ((count_only _ _).mono (by decide)) ?_
    split
    · exact refineSight_only _ _ _
    · exact admitSight_only _ _ _

theorem setMoved_only (s : State) (rs : List PlumeRecord) (n : Nat) :
    Only [.plumes, .lead] s { s with timeline := { s.timeline with records := rs, lead := n } } := by
  intro p hp
  cases p <;> first | rfl | exact ⟨rfl, rfl⟩ | exact ⟨rfl, rfl, rfl⟩ | exact absurd (by decide) hp

theorem timelineTravel_only (s : State) (d : Nat) (b : Bool) (v : Nat) : Only plumeParts s (s.timelineTravel d b v) := by
  unfold timelineTravel
  exact Only.ite (Only.refl _ _) (judge_after ((setMoved_only s _ _).seq (bump_only _ _ _) (by decide) (by decide)) _)

theorem timelineLoss_only (s : State) : Only plumeParts s s.timelineLoss := by
  unfold timelineLoss
  exact Only.ite (Only.refl _ _) (judge_after ((setRecords_only s _).mono (by decide)) _)

theorem resetTimelineRecords_only (s : State) : Only plumeParts s s.resetTimelineRecords := by
  unfold resetTimelineRecords
  exact Only.ite (Only.refl _ _) (Only.ite ((setRecords_only _ _).mono (by decide))
    ((setRecords_only _ _).seq (withdrawPlume_only _) (by decide) (by decide)))

/-! ## Sighting detector -/

/-- What the detector touches at a sweep end. -/
abbrev detectorParts : List Part := .detector :: postParts

theorem followBaselines_only (s : State) : Only [.detector] s s.followBaselines := setDetector_only _ _

theorem foldSighting_only (s : State) : Only [.detector] s s.foldSighting := setDetector_only _ _

theorem openSighting_only (s : State) : Only detectorParts s s.openSighting :=
  (((setDetector_only s _).mono (by decide)).trans ((post_only _ _ _).mono (by decide))).trans
    ((count_only _ _).mono (by decide))

theorem closeSighting_only (s : State) : Only detectorParts s s.closeSighting :=
  (((setDetector_only s _).mono (by decide)).trans ((post_only _ _ _).mono (by decide))).trans
    ((followBaselines_only _).mono (by decide))

theorem evaluateDetector_only (s : State) : Only detectorParts s s.evaluateDetector := by
  have hd {t u : State} (h : Only [.detector] t u) : Only detectorParts t u := h.mono (by decide)
  unfold evaluateDetector
  dsimp only
  split
  · exact hd ((Only.ite (setDetector_only _ _) (Only.refl _ _)).trans (followBaselines_only _))
  · exact Only.ite (openSighting_only _) (hd ((setDetector_only _ _).trans (followBaselines_only _)))
  · exact Only.ite (hd (foldSighting_only _)) (hd ((foldSighting_only _).trans (setDetector_only _ _)))
  · exact Only.ite (hd ((foldSighting_only _).trans (setDetector_only _ _)))
      ((hd (foldSighting_only _)).trans (closeSighting_only _))

theorem detectorSweep_only (s : State) : Only detectorParts s s.detectorSweep := by
  unfold detectorSweep
  refine Only.ite ?_ (Only.refl _ _)
  split
  · exact evaluateDetector_only _
  · exact (followBaselines_only _).mono (by decide)
  · exact (followBaselines_only _).mono (by decide)
  · exact Only.refl _ _

theorem detectorTravel_only (s : State) (d : Nat) (b : Bool) : Only [.detector] s (s.detectorTravel d b) := by
  unfold detectorTravel
  exact Only.ite (setDetector_only _ _) (Only.refl _ _)

theorem detectorLost_only (s : State) (b : Bool) : Only [.detector] s (s.detectorLost b) := by
  unfold detectorLost
  exact Only.ite (setDetector_only _ _) (Only.refl _ _)

/-! ## Peer table -/

theorem roleChange_only (s : State) (n : Fin 8) (p : Presence) : Only peerParts s (s.roleChange n p) :=
  (setPresence_only s n p).seq (purgePeer_only _ _) (by decide) (by decide)

theorem takeStatusInfo_only (s : State) (n : Fin 8) (i : PeerInfo) : Only peerParts s (s.takeStatusInfo n i) := by
  have hs (t : State) (p : Presence) : Only peerParts t (t.setPresence n p) := (setPresence_only t n p).mono (by decide)
  unfold takeStatusInfo
  split
  · exact hs _ _
  · exact Only.ite (hs _ _) ((roleChange_only _ _ _).trans (hs _ _))
  · exact Only.ite (hs _ _) ((roleChange_only _ _ _).trans (hs _ _))

theorem noticeIfCabinChanged_only (s b : State) : Only (.mix :: rampParts) s (s.noticeIfCabinChanged b) := by
  unfold noticeIfCabinChanged
  exact Only.ite (Only.refl _ _) (mixNotice_only _)

theorem takeStatus_only (s : State) (f : Frame) : Only peerParts s (s.takeStatus f) := by
  unfold takeStatus
  split
  · exact (count_only _ _).mono (by decide)
  · exact Only.ite (Only.refl _ _)
      ((takeStatusInfo_only _ _ _).trans ((noticeIfCabinChanged_only _ _).mono (by decide)))

theorem takeReading_only (s : State) (f : Frame) : Only peerParts s (s.takeReading f) := by
  unfold takeReading
  split
  · exact Only.refl _ _
  · exact Only.refl _ _
  · split
    · exact (count_only _ _).mono (by decide)
    · exact Only.ite ((setPresence_only _ _ _).seq (mixNotice_only _) (by decide) (by decide))
        ((setPresence_only _ _ _).mono (by decide))

theorem goSilent_only (s : State) (n : Fin 8) : Only peerParts s (s.goSilent n) := by
  unfold goSilent
  split
  · exact Only.refl _ _
  · exact Only.refl _ _
  · next i _ =>
    dsimp only
    have h : Only peerParts s (((s.setPresence n (.silent i.silenced)).purgePeer n).raiseTally n |>.setFlag .peerLost) :=
      (((setPresence_only s n _).mono (by decide)).trans ((purgePeer_only _ n).mono (by decide))).trans
        (((raiseTally_only _ n).mono (by decide)).trans ((writeFlag_only _ .peerLost true).mono (by decide)))
    exact Only.ite (Only.trans h ((mixNotice_only _).mono (by decide))) h

theorem checkSilence_only (s : State) (n : Fin 8) : Only peerParts s (s.checkSilence n) := by
  unfold checkSilence
  split
  · exact Only.refl _ _
  · exact Only.refl _ _
  · exact Only.ite (goSilent_only _ _) (Only.refl _ _)

theorem limitsFell_only (s : State) : Only peerParts s s.limitsFell := Only.foldl checkSilence_only _ _

theorem latchStale_only (s : State) : Only [.peers] s s.latchStale := by
  intro p hp
  cases p <;> first | rfl | exact ⟨rfl, rfl⟩ | exact ⟨rfl, rfl, rfl⟩ | exact absurd (by decide) hp

/-! ## Travel tracker -/

/-- What a TRAVEL taken by the tracker touches. -/
abbrev trackerParts : List Part := .tracker :: travelParts

theorem travelNotice_only (s : State) (d : Nat) (m : Travel) : Only travelParts s (s.travelNotice d m) :=
  (detectorTravel_only _ _ _).seq (timelineTravel_only _ _ _ _) (by decide) (by decide)

theorem ignitionNotice_only (s : State) (b : Bool) : Only regimeParts s (s.ignitionNotice b) := by
  unfold ignitionNotice
  exact Only.ite (Only.refl _ _) (reselect_only _)

theorem trackerFollows_only (s : State) (n : Fin 8) (m : Travel) (d : Nat) (o : TravelOrder) :
    Only trackerParts s (s.trackerFollows n m d o) := by
  have h0 : Only trackerParts s (s.setTracker (Tracker.follow s.cfg n m)) := (setTracker_only _ _).mono (by decide)
  unfold trackerFollows
  dsimp only
  split
  · exact (h0.trans ((travelNotice_only _ _ _).mono (by decide))).trans ((ignitionNotice_only _ _).mono (by decide))
  · exact (h0.trans ((ignitionNotice_only _ _).mono (by decide))).trans ((travelNotice_only _ _ _).mono (by decide))

theorem trackerHears_only (s : State) (n : Fin 8) (m : Travel) (o : TravelOrder) :
    Only trackerParts s (s.trackerHears n m o) := by
  unfold trackerHears
  refine Only.ite ((setTracker_only _ _).mono (by decide)) (Only.ite (trackerFollows_only _ _ _ _ _) ?_)
  exact Only.trans ((count_only s _).seq (writeFlag_only _ _ _) (by decide) (by decide))
    (trackerFollows_only _ _ _ _ _)

theorem trackerResyncs_only (s : State) (n : Fin 8) (m : Travel) (o : TravelOrder) :
    Only trackerParts s (s.trackerResyncs n m o) :=
  Only.trans ((writeFlag_only s _ _).seq (detectorLost_only _ _) (by decide) (by decide)) (trackerFollows_only _ _ _ _ _)

theorem trackerTakes_only (s : State) (n : Fin 8) (m : Travel) (o : TravelOrder) :
    Only trackerParts s (s.trackerTakes n m o) := by
  unfold trackerTakes
  split
  · exact trackerResyncs_only _ _ _ _
  · exact trackerResyncs_only _ _ _ _
  · exact trackerFollows_only _ _ _ _ _
  · exact Only.ite (trackerHears_only _ _ _ _)
      (Only.ite (trackerFollows_only _ _ _ _ _) ((count_only _ _).mono (by decide)))

/-! ## Rules -/

/-- What the rule table can touch. -/
abbrev ruleParts : List Part := .rules :: conditionParts

theorem ruleChanged_only (s : State) (n : Fin 8) (b : Bool) : Only ruleParts s (s.ruleChanged n b) := by
  have hw : Only ruleParts s (s.writeFlag (.rule n) b) := (writeFlag_only _ _ _).mono (by decide)
  unfold ruleChanged
  dsimp only
  split
  · exact hw
  · exact hw.trans ((conditionChanged_only _ _ _ _ _).mono (by decide))
  · exact hw.trans ((ruleSafeChanged_only _).mono (by decide))

theorem evaluateRule_only (s : State) (n : Fin 8) : Only ruleParts s (s.evaluateRule n) := by
  unfold evaluateRule
  dsimp only
  refine Only.ite ?_ (Only.refl _ _)
  split
  · exact Only.ite ((setRule_only _ _ _).mono (by decide))
      (((setRule_only _ _ _).mono (by decide)).trans (ruleChanged_only _ _ _))
  · exact Only.refl _ _

theorem evaluateRules_only (s : State) : Only ruleParts s s.evaluateRules := by
  unfold evaluateRules
  exact Only.ite (Only.refl _ _) (Only.foldl evaluateRule_only _ _)

/-! ## Sequencer -/

/-- What a sweep end can touch. -/
abbrev sweepEndParts : List Part := .detector :: ruleParts

theorem sweepEnd_only (s : State) (o : SweepOrder) : Only sweepEndParts s (s.sweepEnd o) := by
  have h0 : Only sweepEndParts s s.detectorSweep := (detectorSweep_only _).mono (by decide)
  have hr (t : State) : Only sweepEndParts t t.evaluateRules := (evaluateRules_only t).mono (by decide)
  have hm (t : State) : Only sweepEndParts t t.mixNotice := (mixNotice_only t).mono (by decide)
  unfold sweepEnd
  dsimp only
  refine Only.trans ?_ ((stallCheck_only _).mono (by decide))
  split
  · exact (h0.trans (hr _)).trans (hm _)
  · exact (h0.trans (hm _)).trans (hr _)

theorem convertSlot_only (s : State) (i : Fin 16) (c : Nat) :
    Only [.records, .flagBits, .alert] s (s.convertSlot i c) := by
  unfold convertSlot
  dsimp only
  split
  · exact Only.refl _ _
  · exact (setRecord_only s _ _).seq (writeFlag_only _ _ _) (by decide) (by decide)

/-! ## Input unit -/

theorem handLevels_only (s b : State) : Only (.scrub :: conditionParts) s (s.handLevels b) := by
  have hc (t : State) (n : Fin 16) (r : DemandRegime) (l : Nat) (x : Bool) :
      Only (.scrub :: conditionParts) t (t.conditionChanged n r l x) := (conditionChanged_only _ _ _ _ _).mono (by decide)
  have hf (t : State) : Only (.scrub :: conditionParts) t t.forceChanged := (forceChanged_only t).mono (by decide)
  unfold handLevels
  refine Only.ite (Only.refl _ _) ?_
  dsimp only
  have ha : Only (.scrub :: conditionParts) s (if s.anyDoorOpen = b.anyDoorOpen then s else s.doorsChanged) :=
    Only.ite (Only.refl _ _) ((doorsChanged_only _).mono (by decide))
  have hb := Only.ite (c := s.recircSwitch = b.recircSwitch) ha
    (ha.trans (hc _ 2 .recirc s.cfg.driverLevel s.recircSwitch))
  have hd := Only.ite (c := s.flushSwitch = b.flushSwitch) hb
    (hb.trans (hc _ 3 .flush s.cfg.driverLevel s.flushSwitch))
  exact Only.ite hd (hd.trans (hf _))

/-! ## Accounting -/

theorem exposureSecond_only (s : State) (g : Exposure) : Only [.counters, .flagBits, .alert] s (s.exposureSecond g) := by
  unfold exposureSecond
  split
  · exact count_only _ _
  · exact (count_only _ _).trans (bump_only _ _ _)

theorem cabinSecond_only (s : State) : Only [.counters, .flagBits, .alert] s s.cabinSecond := by
  have h := ((exposureSecond_only s .pm).trans (exposureSecond_only _ .no2)).trans (exposureSecond_only _ .co2)
  unfold cabinSecond
  exact Only.ite (h.trans (count_only _ _)) h

theorem filterSecond_only (s : State) : Only [.filter, .flagBits, .alert] s s.filterSecond := by
  unfold filterSecond
  split
  · exact Only.refl _ _
  · exact Only.ite ((setFilter_only _ _ _ _).mono (by decide))
      ((setFilter_only s _ _ _).seq (writeFlag_only _ _ _) (by decide) (by decide))

theorem inletSecond_only (s : State) : Only [.counters, .filter, .flagBits, .alert] s s.inletSecond :=
  (count_only s _).seq (filterSecond_only _) (by decide) (by decide)

end State
end Sys2Proof.Machine
end

