-- ==== Sys2Proof/Laws/Bus.lean ====
section
/-! SUPPORT. What the link controller and the requests touch, but for the resets that put every owner in its power-on
state. -/

namespace Sys2Proof.Machine

open Sys2Proof

/-- What counting and flags touch. -/
abbrev noteParts : List Part := [.counters, .flagBits, .alert]

/-- What an outcome touches, but for the mailboxes. -/
abbrev scoreParts : List Part := [.score, .linkState, .withdrawal, .counters, .flagBits, .alert]

namespace State

/-! ## Outcomes -/

theorem countSent_only (s : State) (f : Frame) : Only noteParts s (s.countSent f) := by
  unfold countSent
  exact Only.ite ((count_only _ _).trans (count_only _ _)) (count_only _ _)

theorem scoreSent_only (s : State) : Only [.score, .linkState, .flagBits, .alert] s s.scoreSent := by
  unfold scoreSent
  exact Only.ite ((setLink_only _ _ _).seq (writeFlag_only _ _ _) (by decide) (by decide))
    ((setLink_only _ _ _).mono (by decide))

/-- A state with the flags of `s` put back differs from `s` in the other parts alone. -/
theorem keepFlags_only {ps : List Part} {s t : State} (h : Only (.flagBits :: .alert :: ps) s t) :
    Only ps s { t with flags := s.flags } := by
  intro p hp
  have hs : p ≠ .flagBits → p ≠ .alert → p.same s t := fun h₁ h₂ => h p (by simp [h₁, h₂, hp])
  cases p <;> first | rfl | exact hs (by decide) (by decide)

theorem scoreInLoading_only {ps : List Part} {s t : State} (n : Nat) (h : Only (.flagBits :: .alert :: ps) s t) :
    Only (.score :: .linkState :: ps) s (s.scoreInLoading t n) :=
  ((keepFlags_only h).mono fun _ hp => by simp [hp]).trans ((setLink_only _ _ _).mono fun _ hp => by
    simp only [List.mem_cons, List.not_mem_nil, or_false] at hp
    rcases hp with rfl | rfl <;> simp)

theorem withdraw_only (s : State) (n : Nat) : Only (.boxes :: .offer :: .abandoned :: scoreParts) s (s.withdraw n) := by
  have h0 : Only [.boxes, .offer, .abandoned, .score, .linkState, .withdrawal] s
      { s with
        link := { s.link with score := n, state := .withdrawn, withdrawal := some withdrawalTime }
        transmit := { boxes := emptyBoxes, offer := none, abandoned := s.transmit.abandon } } := by
    intro p hp
    cases p <;>
      first | rfl | exact ⟨rfl, rfl⟩ | exact ⟨rfl, rfl, rfl⟩ | exact absurd (by decide) hp
  exact (((h0.mono (by decide)).trans ((count_only _ _).mono (by decide))).trans
    ((writeFlag_only _ _ _).mono (by decide))).trans ((writeFlag_only _ _ _).mono (by decide))

theorem scoreFailed_only (s : State) : Only (.boxes :: .offer :: .abandoned :: scoreParts) s s.scoreFailed := by
  have hl (n : Nat) (l : LinkState) : Only (.boxes :: .offer :: .abandoned :: scoreParts) s (s.setLink n l) :=
    (setLink_only _ _ _).mono (by decide)
  unfold scoreFailed
  dsimp only
  split
  · exact hl _ _
  · exact Only.ite (withdraw_only _ _) (Only.ite ((hl _ _).trans ((writeFlag_only _ _ _).mono (by decide))) (hl _ _))
  · exact Only.ite (withdraw_only _ _) (hl _ _)

theorem postReading_only (s : State) (i : Fin 16) : Only postParts s (s.postReading i) := by
  unfold postReading
  exact Only.ite (post_only _ _ _) (Only.refl _ _)

/-! ## Stretch, crowding, reception -/

theorem setPeerStretch_only (s : State) (x : StretchFactor) :
    Only [.stretch] s (s.setStretch { s.stretch with peer := x }) := by
  intro p hp
  cases p <;> first | rfl | exact ⟨rfl, rfl⟩ | exact ⟨rfl, rfl, rfl⟩ | exact absurd (by decide) hp

theorem setIntervalStretch_only (s : State) (x : StretchFactor) :
    Only [.interval] s (s.setStretch { s.stretch with interval := x }) := by
  intro p hp
  cases p <;> first | rfl | exact ⟨rfl, rfl⟩ | exact ⟨rfl, rfl, rfl⟩ | exact absurd (by decide) hp

theorem raisePeerStretch_only (s : State) (a b : Nat) : Only [.peers, .stretch] s (s.raisePeerStretch a b) :=
  (latchStale_only s).seq (setPeerStretch_only s.latchStale _) (by decide) (by decide)

theorem takeHush_only (s : State) (f : Frame) : Only (.peers :: .stretch :: .interval :: noteParts) s (s.takeHush f) := by
  have hc : Only (.peers :: .stretch :: .interval :: noteParts) s (s.count .hushHeard) := (count_only _ _).mono (by decide)
  unfold takeHush
  dsimp only
  split
  · exact hc
  · exact hc.trans ((raisePeerStretch_only _ _ _).seq (setIntervalStretch_only _ _) (by decide) (by decide))

theorem endPeerStretch_only (s : State) : Only (.stretch :: peerParts) s s.endPeerStretch := by
  have h0 : Only (.stretch :: peerParts) s (s.setStretch { s.stretch with peer := noStretch }) :=
    (setPeerStretch_only _ _).mono (by decide)
  unfold endPeerStretch
  exact Only.ite (h0.trans ((limitsFell_only _).mono (by decide))) h0

/-- What a crowding event touches. -/
abbrev crowdParts : List Part := .guard :: .peers :: .stretch :: postParts

theorem sendHush_only (s : State) (b : Bool) : Only crowdParts s (s.sendHush b) :=
  (((setGuard_only s _).mono (by decide)).trans ((post_only _ _ _).mono (by decide))).trans
    ((raisePeerStretch_only _ _ _).mono (by decide))

theorem crowding_only (s : State) : Only crowdParts s s.crowding := by
  unfold crowding
  dsimp only
  refine Only.ite (Only.refl _ _) ?_
  split
  · exact sendHush_only _ _
  · exact Only.ite (sendHush_only _ _) (Only.refl _ _)

theorem overflow_only (s : State) : Only noteParts s s.overflow :=
  (count_only s _).seq (writeFlag_only _ _ _) (by decide) (by decide)

theorem enqueue_only (s : State) (f : Frame) : Only (.queue :: crowdParts) s (s.enqueue f) := by
  have hq (q : List Frame) : Only (.queue :: crowdParts) s (s.setQueue q) := (setQueue_only _ _).mono (by decide)
  have ho (t : State) : Only (.queue :: crowdParts) t t.overflow := (overflow_only t).mono (by decide)
  have hc (t : State) : Only (.queue :: crowdParts) t t.crowding := (crowding_only t).mono (by decide)
  unfold enqueue
  exact Only.ite (Only.ite ((hq _).trans (hc _)) (hq _))
    (Only.ite (((hq _).trans (ho _)).trans (hc _)) ((ho _).trans (hc _)))

theorem filterFrame_only (s : State) (f : Frame) : Only (.queue :: crowdParts) s (s.filterFrame f) := by
  unfold filterFrame
  exact Only.ite (((count_only s _).mono (by decide)).trans (enqueue_only _ _)) ((count_only _ _).mono (by decide))

/-! ## Requests -/

theorem answer_only (s : State) (f : Frame) (n : Nat) : Only postParts s (s.answer f n) := hold_only _ _ _

theorem unlessMoving_only {ps : List Part} {act : State → Frame → State} (h : ∀ t g, Only ps t (act t g))
    (hp : postParts ⊆ ps) (s : State) (f : Frame) : Only ps s (s.unlessMoving f act) := by
  unfold unlessMoving
  exact Only.ite ((answer_only _ _ _).mono hp) (h _ _)

theorem clearGroup_only (s : State) (n : Nat) : Only [.counters] s (s.clearGroup n) := by
  intro p hp
  cases p <;> first | rfl | exact ⟨rfl, rfl⟩ | exact ⟨rfl, rfl, rfl⟩ | exact absurd (by decide) hp

theorem clearNamed_only (m : Nat) (s : State) (i : Fin 7) : Only [.flagBits, .alert] s (s.clearNamed m i) := by
  unfold clearNamed
  exact Only.ite (writeFlag_only _ _ _) (Only.refl _ _)

theorem clearFilter_only (s : State) : Only [.filter, .flagBits, .alert] s s.clearFilter := by
  unfold clearFilter
  exact Only.ite ((setFilter_only s _ _ _).seq (writeFlag_only _ _ _) (by decide) (by decide)) (Only.refl _ _)

theorem resetDetector_only (s : State) : Only [.detector] s s.resetDetector := by
  unfold resetDetector
  exact Only.ite (setDetector_only _ _) (Only.refl _ _)

theorem queueItems_only (f : Frame) (its : List Item) (n : Nat) (s : State) :
    Only postParts s (s.queueItems f n its) := by
  induction its generalizing n s with
  | nil => exact Only.refl _ _
  | cons it its ih => exact (hold_only _ _ _).trans (ih _ _)

theorem takeQuery_only (s : State) (f : Frame) : Only postParts s (s.takeQuery f) := by
  unfold takeQuery
  refine Only.ite ?_ (Only.ite ?_ ?_)
  · split
    · exact answer_only _ _ _
    · exact queueItems_only _ _ _ _
  · exact ((count_only s _).mono (by decide)).trans (answer_only _ _ _)
  · exact (count_only _ _).mono (by decide)

end State
end Sys2Proof.Machine
end

