-- ==== Sys2Proof/Laws/Acts.lean ====
section
/-! SUPPORT. `Act`: what the owners can do within an event, said once. An event of an owner is a sequence of these acts,
and an invariant is proved by proving it for each of them. Outcomes, reception and resets are not acts. -/

namespace Sys2Proof.Machine

open Sys2Proof

/-- The parts that no invariant of Safety.lean speaks about, or only the timeline's own. -/
abbrev quietParts : List Part :=
  [.records, .sweep, .inputs, .source, .tracker, .detector, .plumes, .lead, .plumeHold, .emitters, .scrub, .mix, .settle,
    .counters, .filter, .accountingTimer, .guard, .stretch, .interval, .statusTimer, .readingTimer]

/-- The level flags whose condition is a field of the state. -/
def levelFlag : Flag → Bool
  | .safeActive => true
  | .conflict => true
  | .linkPassive => true
  | .linkWithdrawn => true
  | .rule _ => true
  | _ => false

/-- The reading lists of a peer table hold at most 8 records each. -/
def ReadingsBounded (v : Vector PeerEntry 8) : Prop :=
  ∀ (n : Fin 8) (i : PeerInfo), v[n].presence = .present i → i.readings.length ≤ 8

/-- What the owners can do within an event. -/
inductive Act : State → State → Prop
  | refl (s : State) : Act s s
  | trans {s t u : State} : Act s t → Act t u → Act s u
  | quiet {s t : State} : Only quietParts s t → Act s t
  | flag (s : State) (f : Flag) (b : Bool) : levelFlag f = false → Act s (s.writeFlag f b)
  | post (s : State) (box : Box) (f : Frame) : Act s (s.post box f)
  | answer (s : State) (h : Held) : Act s (s.hold .answer h)
  | list (s : State) (l : DemandList) : (s.demands.entries.length ≤ 16 → l.entries.length ≤ 16) →
      Act s { s with demands := l }
  | peers (s : State) (v : Vector PeerEntry 8) : (ReadingsBounded s.peers → ReadingsBounded v) →
      Act s { s with peers := v }
  | reselect (s : State) : Act s s.reselect
  | rederive (s : State) : Act s s.rederive
  | setSafe (s : State) (q : SafeSet) : Act s (s.setSafe q)
  | dropRemote (s : State) : Act s s.dropRemote
  | computeMix (s : State) (afresh : Bool) : Act s (s.computeMix afresh)
  | rule (s : State) (n : Fin 8) (r : RuleState) : Act s ((s.setRule n r).writeFlag (.rule n) r.firing)
  | tally (s : State) (n : Fin 8) (r : RuleState) : r.firing = s.rules[n].firing → Act s (s.setRule n r)

namespace Act

theorem ite {s t u : State} {c : Prop} [Decidable c] (h : Act s t) (k : Act s u) : Act s (if c then t else u) := by
  split <;> assumption

theorem foldl {α : Type} {f : State → α → State} (h : ∀ s a, Act s (f s a)) (l : List α) (s : State) :
    Act s (l.foldl f s) := by
  induction l generalizing s with
  | nil => exact refl s
  | cons a as ih => exact (h s a).trans (ih (f s a))

/-- Touching only quiet parts is an act. -/
theorem of {ps : List Part} {s t : State} (h : Only ps s t) (hs : ps ⊆ quietParts := by decide) : Act s t :=
  quiet (h.mono hs)

theorem bump (s : State) (c : Counter) (n : Nat) : Act s (s.bump c n) := by
  have h : Act s
      { s with accounting := { s.accounting with
          counters := s.accounting.counters.set c.index (s.accounting.counters[c.index].add n) } } := by
    refine of (ps := [.counters]) ?_
    intro p hp
    cases p <;> first | rfl | exact ⟨rfl, rfl⟩ | exact ⟨rfl, rfl, rfl⟩ | exact absurd (by decide) hp
  unfold State.bump
  exact ite h (h.trans (flag _ _ _ rfl))

theorem count (s : State) (c : Counter) : Act s (s.count c) := bump s c 1

/-! ## Demand list -/

theorem length_placeEntry (e : DemandEntry) (l : List DemandEntry) : (placeEntry e l).length = l.length + 1 := by
  induction l with
  | nil => rfl
  | cons x xs ih => simp only [placeEntry]; split <;> simp_all

theorem length_renumberFrom (n : Nat) (l : List DemandEntry) : (renumberFrom n l).length = l.length := by
  induction l generalizing n with
  | nil => rfl
  | cons x xs ih => simp [renumberFrom, ih]

theorem length_insert (l : DemandList) (e : DemandEntry) : (l.insert e).entries.length = l.entries.length + 1 := by
  simp only [DemandList.insert, length_placeEntry, DemandList.renumbered]
  split <;> simp [length_renumberFrom]

theorem length_remove_le (l : DemandList) (n : Fin 8) (k : Fin 16) : (l.remove n k).entries.length ≤ l.entries.length :=
  List.length_filter_le _ _

/-- Removing a held key makes the list shorter. -/
theorem length_remove_lt {l : DemandList} {e : DemandEntry} (h : e ∈ l.entries) {n : Fin 8} {k : Fin 16}
    (hk : e.hasKey n k = true) : (l.remove n k).entries.length < l.entries.length := by
  apply List.length_filter_lt_length_iff_exists.mpr
  exact ⟨e, h, by simp [hk]⟩

theorem evictionCandidate_mem {l : List DemandEntry} {v : DemandEntry} (h : evictionCandidate l = some v) : v ∈ l := by
  induction l generalizing v with
  | nil => cases h
  | cons x xs ih =>
    simp only [evictionCandidate] at h
    split at h
    · split at h
      · cases h; exact List.mem_cons_self
      · cases h
    · next y hy =>
      split at h
      · cases h; exact List.mem_cons_self
      · cases h; exact List.mem_cons_of_mem _ (ih hy)

theorem insertRaised (s : State) (e : DemandEntry) (h : s.demands.entries.length < listCapacity) :
    Act s (s.insertRaised e) :=
  (list s _ fun _ => by rw [length_insert]; exact h).trans (count _ _)

theorem hasKey_self (v : DemandEntry) : v.hasKey v.station v.source = true := by simp [DemandEntry.hasKey]

/-- An entry evicted for a new one: the list is no longer than before. -/
theorem insertFor (s : State) (v e : DemandEntry) (h : evictionCandidate s.demands.entries = some v) :
    Act s (s.insertFor v e) := by
  have hlt := length_remove_lt (evictionCandidate_mem h) (hasKey_self v)
  exact ((list s _ fun hs => by rw [length_insert]; omega).trans (count _ _)).trans (count _ _)

theorem refuseDemand (s : State) : Act s s.refuseDemand := (count _ _).trans (flag _ _ _ rfl)

theorem raiseMessage (s : State) (e : DemandEntry) : Act s (s.raiseMessage e) := by
  unfold State.raiseMessage
  split
  · next h => exact insertRaised _ _ h
  · split
    · exact refuseDemand _
    · next v hv => exact ite (insertFor _ _ _ hv) (refuseDemand _)

theorem refreshMessage (s : State) (o e : DemandEntry) (h : s.demands.find e.station e.source = some o) :
    Act s (s.refreshMessage o e) := by
  unfold State.refreshMessage
  refine ite ((list s _ fun hs => ?_).trans (count _ _)) ((list s _ fun hs => ?_).trans (count _ _))
  · simpa [DemandList.refreshInPlace] using hs
  · have hf : s.demands.entries.find? (fun x => x.hasKey e.station e.source) = some o := h
    have hk : o.hasKey e.station e.source = true := by simpa using List.find?_some hf
    have hlt := length_remove_lt (List.mem_of_find?_eq_some hf) hk
    rw [length_insert]
    omega

theorem takeDemandEntry (s : State) (f : Frame) : Act s (s.takeDemandEntry f) := by
  unfold State.takeDemandEntry
  refine ite (count _ _) (ite (list s _ fun hs => (length_remove_le _ _ _).trans hs) ?_)
  split
  · exact refl _
  · split
    · exact raiseMessage _ _
    · next o ho => exact refreshMessage _ _ _ ho

theorem insertLocal (s : State) (n : Fin 16) (r : DemandRegime) (l : Nat) : Act s (s.insertLocal n r l) := by
  unfold State.insertLocal
  dsimp only
  split
  · exact refl _
  · split
    · next h => exact insertRaised _ _ h
    · split
      · exact refl _
      · next v hv => exact insertFor _ _ _ hv

theorem raiseLocal (s : State) (n : Fin 16) (r : DemandRegime) (l : Nat) : Act s (s.raiseLocal n r l) :=
  (insertLocal s n r l).trans (reselect _)

theorem removeEntry (s : State) (n : Fin 8) (k : Fin 16) : Act s { s with demands := s.demands.remove n k } :=
  list s _ fun hs => (length_remove_le _ _ _).trans hs

theorem withdrawLocal (s : State) (n : Fin 16) : Act s (s.withdrawLocal n) := by
  unfold State.withdrawLocal
  exact ite (refl _) ((removeEntry _ _ _).trans (reselect _))

theorem setLocal (s : State) (n : Fin 16) (r : DemandRegime) (l : Nat) (b : Bool) : Act s (s.setLocal n r l b) := by
  unfold State.setLocal
  exact ite (raiseLocal _ _ _ _) (withdrawLocal _ _)

theorem setForceMember (s : State) (b : Bool) : Act s (s.setForceMember b) := setSafe s _

theorem takeSafe (s : State) (f : Frame) : Act s (s.takeSafe f) := by
  unfold State.takeSafe
  exact ite (count _ _) (ite (setSafe _ _) (setSafe _ _))

theorem purgePeer (s : State) (n : Fin 8) : Act s (s.purgePeer n) := by
  unfold State.purgePeer
  refine ite (refl _) ?_
  exact (((list s _ fun hs => (List.length_filter_le _ _).trans hs).trans (bump _ _ _)).trans (reselect _)).trans
    (setSafe _ _)

theorem insertRule (s : State) (n : Fin 8) : Act s (s.insertRule n) := by
  unfold State.insertRule
  split
  · exact ite (insertLocal _ _ _ _) (refl _)
  all_goals exact refl _

theorem insertLocals (s : State) : Act s s.insertLocals := by
  unfold State.insertLocals
  dsimp only
  have ha : Act s (if s.timeline.hold = .off then s else s.insertLocal 0 .recirc s.cfg.timeline.plumeLevel) :=
    ite (refl _) (insertLocal _ _ _ _)
  refine trans ?_ (foldl insertRule _ _)
  refine ite (trans ?_ (insertLocal _ _ _ _)) ?_ <;> exact ite (ha.trans (insertLocal _ _ _ _)) ha

theorem resetDemands (s : State) : Act s s.resetDemands := by
  unfold State.resetDemands
  refine ite (refl _) ?_
  exact (((list s _ fun _ => Nat.zero_le _).trans (insertLocals _)).trans (dropRemote _)).trans (rederive _)

/-! ## Emitters and door scrub -/

theorem setEmitter (s : State) (n : Fin 16) (e : Emitter) : Act s (s.setEmitter n e) := of (State.setEmitter_only s n e)

theorem setSafeEmitter (s : State) (e : Emitter) : Act s (s.setSafeEmitter e) := of (State.setSafeEmitter_only s e)

theorem emitterBegins (s : State) (n : Fin 16) : Act s (s.emitterBegins n) := by
  unfold State.emitterBegins
  split
  · exact refl _
  · exact ite ((setEmitter _ _ _).trans (post _ _ _)) (refl _)

theorem emitterEnds (s : State) (n : Fin 16) : Act s (s.emitterEnds n) := by
  unfold State.emitterEnds
  exact ite ((setEmitter _ _ _).trans (post _ _ _)) (refl _)

theorem safeReasonsChanged (s : State) : Act s s.safeReasonsChanged := by
  have h (e : Emitter) (f : Frame) : Act s ((s.setSafeEmitter e).post .safe f) := (setSafeEmitter _ _).trans (post _ _ _)
  unfold State.safeReasonsChanged
  exact ite (refl _) (ite (ite (refl _) (h _ _)) (ite (h _ _) (refl _)))

theorem conditionChanged (s : State) (n : Fin 16) (r : DemandRegime) (l : Nat) (b : Bool) :
    Act s (s.conditionChanged n r l b) := by
  unfold State.conditionChanged
  exact ite (setLocal _ _ _ _ _) (ite (emitterBegins _ _) (emitterEnds _ _))

theorem forceChanged (s : State) : Act s s.forceChanged := by
  unfold State.forceChanged
  exact ite (setSafe _ _) (safeReasonsChanged _)

theorem ruleSafeChanged (s : State) : Act s s.ruleSafeChanged := by
  unfold State.ruleSafeChanged
  exact ite (setSafe _ _) (safeReasonsChanged _)

theorem emittersTake (s : State) : Act s s.emittersTake :=
  trans (foldl (fun t n => by unfold State.emitterTakes; exact ite (emitterBegins _ _) (refl _)) _ _)
    (safeReasonsChanged _)

theorem startScrub (s : State) : Act s s.startScrub := by
  unfold State.startScrub
  exact ((of (State.setScrub_only s _)).trans (count _ _)).trans (emitterBegins _ _)

theorem endScrub (s : State) : Act s s.endScrub := by
  unfold State.endScrub
  exact (of (State.setScrub_only s _)).trans (emitterEnds _ _)

theorem doorsChanged (s : State) : Act s s.doorsChanged := by
  unfold State.doorsChanged
  exact ite (ite (endScrub _) (refl _)) (ite (startScrub _) (refl _))

/-! ## Plume timeline -/

theorem setHold (s : State) (h : PlumeHold) (t : Timer) : Act s (s.setHold h t) := of (State.setHold_only s h t)

theorem setRecords (s : State) (rs : List PlumeRecord) : Act s (s.setRecords rs) := of (State.setRecords_only s rs)

theorem withdrawPlume (s : State) : Act s s.withdrawPlume := (setHold s _ _).trans (withdrawLocal _ _)

theorem startPostHold (s : State) : Act s s.startPostHold := by
  unfold State.startPostHold
  exact ite (withdrawPlume _) (setHold _ _ _)

theorem judgePlume (s : State) (b : Bool) : Act s (s.judgePlume b) := by
  unfold State.judgePlume
  dsimp only
  have ht : Act s
      (match s.timeline.hold with
      | .off => if b then s.raisePlume else s
      | .postHold => if b then s.setHold .held none else s
      | .held => s) := by
    split
    · exact ite (((setHold s _ _).trans (count _ _)).trans (raiseLocal _ _ _ _)) (refl _)
    · exact ite (setHold _ _ _) (refl _)
    · exact refl _
  exact ite (ht.trans (startPostHold _)) ht

theorem createRecord (s : State) (m : Sight) (o : Int) : Act s (s.createRecord m o) :=
  ((of (State.setPlumes_only s _ _)).trans (count _ _)).trans (judgePlume _ _)

theorem dropSight (s : State) : Act s s.dropSight := (count s _).trans (flag _ _ _ rfl)

theorem admitSight (s : State) (m : Sight) (o : Int) : Act s (s.admitSight m o) := by
  unfold State.admitSight
  refine ite (createRecord _ _ _) ?_
  split
  · exact dropSight _
  · exact ite (((setRecords s _).trans (count _ _)).trans (createRecord _ _ _)) (dropSight _)

theorem takeSight (s : State) (m : Sight) : Act s (s.takeSight m) := by
  unfold State.takeSight
  split
  · exact count _ _
  · refine ite (count _ _) ?_
    split
    · unfold State.refineSight
      exact trans (ite ((setRecords s _).trans (count _ _)) (setRecords s _)) (judgePlume _ _)
    · exact admitSight _ _ _

theorem timelineTravel (s : State) (d : Nat) (b : Bool) (v : Nat) : Act s (s.timelineTravel d b v) := by
  unfold State.timelineTravel
  exact ite (refl _) (((of (State.setMoved_only s _ _)).trans (bump _ _ _)).trans (judgePlume _ _))

theorem timelineLoss (s : State) : Act s s.timelineLoss := by
  unfold State.timelineLoss
  exact ite (refl _) ((setRecords s _).trans (judgePlume _ _))

theorem resetTimelineRecords (s : State) : Act s s.resetTimelineRecords := by
  unfold State.resetTimelineRecords
  exact ite (refl _) (ite (setRecords _ _) ((setRecords s _).trans (withdrawPlume _)))

/-! ## Sighting detector -/

theorem setDetector (s : State) (d : Detector) : Act s (s.setDetector d) := of (State.setDetector_only s d)

theorem evaluateDetector (s : State) : Act s s.evaluateDetector := by
  unfold State.evaluateDetector
  dsimp only
  split
  · exact (ite (setDetector s _) (refl _)).trans (setDetector _ _)
  · exact ite (((setDetector s _).trans (post _ _ _)).trans (count _ _)) ((setDetector s _).trans (setDetector _ _))
  · exact ite (setDetector s _) ((setDetector s _).trans (setDetector _ _))
  · exact ite ((setDetector s _).trans (setDetector _ _))
      ((((setDetector s _).trans (setDetector _ _)).trans (post _ _ _)).trans (setDetector _ _))

theorem detectorSweep (s : State) : Act s s.detectorSweep := by
  unfold State.detectorSweep
  refine ite ?_ (refl _)
  split
  · exact evaluateDetector _
  · exact setDetector _ _
  · exact setDetector _ _
  · exact refl _

/-! ## Peer table -/

theorem readings_set {v : Vector PeerEntry 8} (n : Fin 8) (e : PeerEntry)
    (he : ∀ i, e.presence = .present i → i.readings.length ≤ 8) (h : ReadingsBounded v) : ReadingsBounded (v.set n e) := by
  intro m i hm
  rw [set_get] at hm
  split at hm
  · exact he i hm
  · exact h m i hm

theorem setPresence (s : State) (n : Fin 8) (p : Presence)
    (h : ReadingsBounded s.peers → ∀ i, p = .present i → i.readings.length ≤ 8) : Act s (s.setPresence n p) :=
  peers s _ fun hs => readings_set n _ (h hs) hs

theorem raiseTally (s : State) (n : Fin 8) : Act s (s.raiseTally n) :=
  peers s _ fun hs => readings_set n _ (fun i hi => hs n i hi) hs

theorem mixNotice (s : State) : Act s s.mixNotice := computeMix s false

theorem noticeIfCabinChanged (s b : State) : Act s (s.noticeIfCabinChanged b) := by
  unfold State.noticeIfCabinChanged
  exact ite (refl _) (mixNotice _)

theorem decodeStatus_readings {f : Frame} {i : PeerInfo} (h : decodeStatus f = some i) : i.readings = [] := by
  unfold decodeStatus at h
  split at h
  · cases h; rfl
  · cases h

theorem takeStatusInfo (s : State) (n : Fin 8) (new : PeerInfo) (hn : new.readings = []) :
    Act s (s.takeStatusInfo n new) := by
  have hnew (t : State) : Act t (t.setPresence n (.present new)) :=
    setPresence t n _ fun _ i hi => by cases hi; simp [hn]
  unfold State.takeStatusInfo
  split
  · exact hnew _
  · next old hold =>
    refine ite (setPresence s n _ fun hs i hi => ?_) ?_
    · cases hi; exact hs n old hold
    · exact trans ((setPresence s n _ fun _ i hi => by cases hi; simp).trans (purgePeer _ n)) (hnew _)
  · next old hold =>
    refine ite (hnew _) ?_
    exact trans ((setPresence s n _ fun _ i hi => by cases hi).trans (purgePeer _ n)) (hnew _)

theorem takeStatus (s : State) (f : Frame) : Act s (s.takeStatus f) := by
  unfold State.takeStatus
  split
  · exact count _ _
  · next new hnew =>
    exact ite (refl _) ((takeStatusInfo _ _ _ (decodeStatus_readings hnew)).trans (noticeIfCabinChanged _ _))

theorem length_placeReading (rs : List Reading) (r : Reading) (h : rs.length ≤ 8) : (placeReading rs r).length ≤ 8 := by
  unfold placeReading
  split
  · next hk =>
    obtain ⟨x, hx, hkx⟩ := List.any_eq_true.mp hk
    have hlt : (rs.filter fun x => !x.hasKey r.kind r.location).length < rs.length :=
      List.length_filter_lt_length_iff_exists.mpr ⟨x, hx, by simp [hkx]⟩
    rw [List.length_append, List.length_singleton]
    omega
  · split
    · next hlt =>
      rw [List.length_append, List.length_singleton]
      exact hlt
    · rw [List.length_append, List.length_singleton, List.length_drop]
      omega

theorem takeReading (s : State) (f : Frame) : Act s (s.takeReading f) := by
  unfold State.takeReading
  split
  · exact refl _
  · exact refl _
  · next i hi =>
    split
    · exact count _ _
    · next r _ =>
      have h : Act s (s.setPresence f.station (.present { i with readings := placeReading i.readings r })) :=
        setPresence s _ _ fun hs j hj => by cases hj; exact length_placeReading _ _ (hs _ i hi)
      exact ite (h.trans (mixNotice _)) h

theorem goSilent (s : State) (n : Fin 8) : Act s (s.goSilent n) := by
  unfold State.goSilent
  split
  · exact refl _
  · exact refl _
  · next i _ =>
    dsimp only
    have h : Act s (((s.setPresence n (.silent i.silenced)).purgePeer n).raiseTally n |>.setFlag .peerLost) :=
      (((setPresence s n _ fun _ j hj => by cases hj).trans (purgePeer _ n)).trans (raiseTally _ n)).trans
        (flag _ _ _ rfl)
    exact ite (trans h (mixNotice _)) h

theorem checkSilence (s : State) (n : Fin 8) : Act s (s.checkSilence n) := by
  unfold State.checkSilence
  split
  · exact refl _
  · exact refl _
  · exact ite (goSilent _ _) (refl _)

theorem limitsFell (s : State) : Act s s.limitsFell := foldl checkSilence _ _

theorem latchStale (s : State) : Act s s.latchStale := by
  refine peers s _ fun hs n i hi => ?_
  rw [mapVector_get] at hi
  unfold State.latchedEntry at hi
  split at hi
  · next h => rw [h] at hi; cases hi
  · next h => rw [h] at hi; cases hi
  · next j h => cases hi; simpa using hs n j h

/-! ## Travel tracker -/

theorem setTracker (s : State) (t : Tracker) : Act s (s.setTracker t) := of (State.setTracker_only s t)

theorem detectorLost (s : State) (b : Bool) : Act s (s.detectorLost b) := of (State.detectorLost_only s b)

theorem travelNotice (s : State) (d : Nat) (m : Travel) : Act s (s.travelNotice d m) :=
  (of (State.detectorTravel_only s _ _)).trans (timelineTravel _ _ _ _)

theorem ignitionNotice (s : State) (b : Bool) : Act s (s.ignitionNotice b) := by
  unfold State.ignitionNotice
  exact ite (refl _) (reselect _)

theorem trackerFollows (s : State) (n : Fin 8) (m : Travel) (d : Nat) (o : TravelOrder) :
    Act s (s.trackerFollows n m d o) := by
  unfold State.trackerFollows
  dsimp only
  split
  · exact ((setTracker s _).trans (travelNotice _ _ _)).trans (ignitionNotice _ _)
  · exact ((setTracker s _).trans (ignitionNotice _ _)).trans (travelNotice _ _ _)

theorem trackerResyncs (s : State) (n : Fin 8) (m : Travel) (o : TravelOrder) : Act s (s.trackerResyncs n m o) :=
  ((flag s _ _ rfl).trans (detectorLost _ _)).trans (trackerFollows _ _ _ _ _)

theorem trackerTakes (s : State) (n : Fin 8) (m : Travel) (o : TravelOrder) : Act s (s.trackerTakes n m o) := by
  unfold State.trackerTakes
  split
  · exact trackerResyncs _ _ _ _
  · exact trackerResyncs _ _ _ _
  · exact trackerFollows _ _ _ _ _
  · refine ite ?_ (ite (trackerFollows _ _ _ _ _) (count _ _))
    unfold State.trackerHears
    exact ite (setTracker _ _) (ite (trackerFollows _ _ _ _ _)
      (((count s _).trans (flag _ _ _ rfl)).trans (trackerFollows _ _ _ _ _)))

/-! ## Rules and the sweep end -/

theorem ruleChanged (s : State) (n : Fin 8) (r : RuleState) : Act s ((s.setRule n r).ruleChanged n r.firing) := by
  unfold State.ruleChanged
  dsimp only
  refine (rule s n r).trans ?_
  split
  · exact refl _
  · exact conditionChanged _ _ _ _ _
  · exact ruleSafeChanged _

theorem evaluateRule (s : State) (n : Fin 8) : Act s (s.evaluateRule n) := by
  unfold State.evaluateRule
  dsimp only
  refine ite ?_ (refl _)
  split
  · next a b _ _ =>
    split
    · next h => exact tally _ _ _ h
    · exact ruleChanged _ _ _
  · exact refl _

theorem evaluateRules (s : State) : Act s s.evaluateRules := by
  unfold State.evaluateRules
  exact ite (refl _) (foldl evaluateRule _ _)

theorem stallCheck (s : State) : Act s s.stallCheck := by
  unfold State.stallCheck
  refine ite ?_ (refl _)
  split
  · exact refl _
  · exact ite (flag _ _ _ rfl) (refl _)

theorem sweepEnd (s : State) (o : SweepOrder) : Act s (s.sweepEnd o) := by
  unfold State.sweepEnd
  dsimp only
  refine trans ?_ (stallCheck _)
  split
  · exact ((detectorSweep s).trans (evaluateRules _)).trans (mixNotice _)
  · exact ((detectorSweep s).trans (mixNotice _)).trans (evaluateRules _)

theorem convertSlot (s : State) (i : Fin 16) (c : Nat) : Act s (s.convertSlot i c) := by
  unfold State.convertSlot
  dsimp only
  split
  · exact refl _
  · exact (of (State.setRecord_only s _ _)).trans (flag _ _ _ rfl)

theorem handLevels (s b : State) : Act s (s.handLevels b) := by
  unfold State.handLevels
  refine ite (refl _) ?_
  dsimp only
  have ha : Act s (if s.anyDoorOpen = b.anyDoorOpen then s else s.doorsChanged) := ite (refl _) (doorsChanged _)
  have hb := ite (c := s.recircSwitch = b.recircSwitch) ha
    (ha.trans (conditionChanged _ 2 .recirc s.cfg.driverLevel s.recircSwitch))
  have hd := ite (c := s.flushSwitch = b.flushSwitch) hb
    (hb.trans (conditionChanged _ 3 .flush s.cfg.driverLevel s.flushSwitch))
  exact ite hd (hd.trans (forceChanged _))

/-! ## Accounting and the filter -/

theorem cabinSecond (s : State) : Act s s.cabinSecond := by
  have hx (t : State) (g : Exposure) : Act t (t.exposureSecond g) := by
    unfold State.exposureSecond
    split
    · exact count _ _
    · exact (count _ _).trans (bump _ _ _)
  have h := ((hx s .pm).trans (hx _ .no2)).trans (hx _ .co2)
  unfold State.cabinSecond
  exact ite (h.trans (count _ _)) h

theorem filterSecond (s : State) : Act s s.filterSecond := by
  unfold State.filterSecond
  split
  · exact refl _
  · exact ite (of (State.setFilter_only _ _ _ _)) ((of (State.setFilter_only _ _ _ _)).trans (flag _ _ _ rfl))

theorem inletSecond (s : State) : Act s s.inletSecond :=
  trans (count s (.regimeSeconds s.regime)) (filterSecond (s.count (.regimeSeconds s.regime)))

/-! ## The link's own acts -/

theorem setGuard (s : State) (g : Option Guard) : Act s (s.setGuard g) := of (State.setGuard_only s g)

theorem raisePeerStretch (s : State) (a b : Nat) : Act s (s.raisePeerStretch a b) :=
  (latchStale s).trans (of (State.setPeerStretch_only s.latchStale _))

theorem takeHush (s : State) (f : Frame) : Act s (s.takeHush f) := by
  unfold State.takeHush
  dsimp only
  split
  · exact count _ _
  · exact ((count s _).trans (raisePeerStretch _ _ _)).trans (of (State.setIntervalStretch_only _ _))

theorem endPeerStretch (s : State) : Act s s.endPeerStretch := by
  unfold State.endPeerStretch
  dsimp only
  exact ite ((of (State.setPeerStretch_only s _)).trans (limitsFell _)) (of (State.setPeerStretch_only s _))

theorem crowding (s : State) : Act s s.crowding := by
  have h (b : Bool) : Act s (s.sendHush b) := ((setGuard s _).trans (post _ _ _)).trans (raisePeerStretch _ _ _)
  unfold State.crowding
  dsimp only
  refine ite (refl _) ?_
  split
  · exact h _
  · exact ite (h _) (refl _)

theorem overflow (s : State) : Act s s.overflow := (count s _).trans (flag _ _ _ rfl)

theorem postReading (s : State) (i : Fin 16) : Act s (s.postReading i) := by
  unfold State.postReading
  exact ite (post _ _ _) (refl _)

/-! ## Requests -/

theorem answered (s : State) (f : Frame) (n : Nat) : Act s (s.answer f n) := answer _ _

theorem clearNamed (m : Nat) (s : State) (i : Fin 7) : Act s (s.clearNamed m i) := by
  unfold State.clearNamed
  exact ite (flag _ _ _ (by fin_cases i <;> rfl)) (refl _)

theorem clearFilter (s : State) : Act s s.clearFilter := by
  unfold State.clearFilter
  exact ite ((of (State.setFilter_only s _ _ _)).trans (flag _ _ _ rfl)) (refl _)

theorem queueItems (f : Frame) (its : List Item) (n : Nat) (s : State) : Act s (s.queueItems f n its) := by
  induction its generalizing n s with
  | nil => exact refl _
  | cons it its ih => exact (answer _ _).trans (ih _ _)

theorem takeQuery (s : State) (f : Frame) : Act s (s.takeQuery f) := by
  unfold State.takeQuery
  refine ite ?_ (ite ((count s _).trans (answer _ _)) (count _ _))
  split
  · exact answer _ _
  · exact queueItems _ _ _ _

end Act
end Sys2Proof.Machine
end

