-- ==== Sys2Proof/Laws/Commands.lean ====
section
/-! SUPPORT. What a command can do, said once: a plain command takes at most the head of the receive queue, does acts of
the owners, and ends with the choice of the frame on offer. -/

namespace Sys2Proof.Machine

open Sys2Proof

/-- The commands that are more than acts of the owners: resets, entries to another station state, pins, a step of a
channel, outcomes, the withdrawal's end, reception, and the requests that reset the link. -/
def plainCommand : Instr → Bool
  | .powerOnReset => false
  | .loadingComplete _ => false
  | .joiningTimerExpiry => false
  | .pinEdge _ _ => false
  | .intervalTimerExpiry _ => false
  | .sent => false
  | .arbitrationLost => false
  | .failed => false
  | .withdrawalTimerExpiry => false
  | .frameReceived _ => false
  | .resetLink => false
  | .resetAll => false
  | .fullResetCarriedOut => false
  | _ => true

/-- The command ends with a choice after acts, from the state or from the state whose queue has lost its head. -/
def ActsOnly (s : State) (o : Host.Outcome State Fault Refusal) : Prop :=
  ∃ m t, (m = s ∨ m = s.dequeue) ∧ Act m t ∧ o = .next t.chooseOffer

namespace ActsOnly

theorem of {s t : State} (h : Act s t) : ActsOnly s (finish t) := ⟨s, t, .inl rfl, h, rfl⟩

theorem none (s : State) : ActsOnly s (finish s) := of (Act.refl s)

theorem took {s t : State} (h : Act s.dequeue t) : ActsOnly s (finish t) := ⟨s.dequeue, t, .inr rfl, h, rfl⟩

theorem ite {s : State} {a b : Host.Outcome State Fault Refusal} {c : Prop} [Decidable c] (h : ActsOnly s a)
    (k : ActsOnly s b) : ActsOnly s (if c then a else b) := by split <;> assumption

theorem serve {s : State} {r : Request} {act : State → Frame → State} (h : ∀ f, Act s.dequeue (act s.dequeue f)) :
    ActsOnly s (s.serve r act) := by
  unfold State.serve
  split
  · exact none s
  · exact ite (took (h _)) (took (Act.refl _))

end ActsOnly

namespace Act

theorem unlessMoving {s : State} {f : Frame} {act : State → Frame → State} (h : Act s (act s f)) :
    Act s (s.unlessMoving f act) := by
  unfold State.unlessMoving
  exact ite (answered _ _ _) h

/-- An update of fields of quiet parts alone. -/
theorem fields {s t : State} (h : ∀ p : Part, p ∉ quietParts → p.same s t) : Act s t := quiet h

end Act

open Act ActsOnly in
theorem exec_plain (c : Instr) (s : State) (hc : plainCommand c = true) : ActsOnly s (exec c s) := by
  cases c <;> first | (exact absurd hc (by decide)) | (exact absurd hc Bool.false_ne_true) | simp only [exec]
  case dwellExpiry code order =>
    unfold execDwellExpiry
    refine ActsOnly.ite (ActsOnly.of ?_) (ActsOnly.none s)
    refine Act.trans ?_ (Act.of (State.startDwell_only _ _))
    exact Act.ite ((convertSlot s _ _).trans (sweepEnd _ _)) (convertSlot s _ _)
  case warmUpExpiry i =>
    exact ActsOnly.ite (ActsOnly.of (Act.of (State.setRecord_only s _ _))) (ActsOnly.none s)
  case suspectTimerExpiry i =>
    exact ActsOnly.ite (ActsOnly.of ((Act.of (State.setRecord_only s _ _)).trans (flag _ _ _ rfl))) (ActsOnly.none s)
  case debounceExpiry i =>
    unfold execDebounceExpiry
    refine ActsOnly.ite (ActsOnly.of ?_) (ActsOnly.none s)
    refine Act.trans ?_ (handLevels _ _)
    have h : Act s { s with inputs := s.inputs.set i { level := s.pins.level (.input i), timer := Option.none } } :=
      Act.fields fun p hp => by cases p <;> first | rfl | exact ⟨rfl, rfl⟩ | exact ⟨rfl, rfl, rfl⟩ | exact absurd (by decide) hp
    exact Act.ite (h.trans (count _ _)) h
  case odoPulse =>
    refine ActsOnly.ite (ActsOnly.of (Act.fields fun p hp => ?_)) (ActsOnly.none s)
    cases p <;> first | rfl | exact ⟨rfl, rfl⟩ | exact ⟨rfl, rfl, rfl⟩ | exact absurd (by decide) hp
  case travelTimerExpiry order =>
    refine ActsOnly.ite (ActsOnly.of ?_) (ActsOnly.none s)
    refine Act.trans (Act.trans (t := { s with source := s.source.close }) (Act.fields fun p hp => ?_) (post _ _ _))
      (trackerTakes _ _ _ _)
    cases p <;> first | rfl | exact ⟨rfl, rfl⟩ | exact ⟨rfl, rfl, rfl⟩ | exact absurd (by decide) hp
  case standstillTimerExpiry =>
    refine ActsOnly.ite (ActsOnly.of (Act.fields fun p hp => ?_)) (ActsOnly.none s)
    cases p <;> first | rfl | exact ⟨rfl, rfl⟩ | exact ⟨rfl, rfl, rfl⟩ | exact absurd (by decide) hp
  case travelTaken order =>
    unfold execTravelTaken
    split
    · exact ActsOnly.none s
    · exact ActsOnly.ite (took (count _ _)) (took (trackerTakes _ _ _ _))
  case lossTimerExpiry =>
    exact ActsOnly.ite (ActsOnly.of ((((setTracker s _).trans (flag _ _ _ rfl)).trans (detectorLost _ _)).trans
      (timelineLoss _))) (ActsOnly.none s)
  case statusTaken =>
    unfold execStatusTaken
    split
    · exact ActsOnly.none s
    · exact took (takeStatus _ _)
  case readingTaken =>
    unfold execReadingTaken
    split
    · exact ActsOnly.none s
    · exact took (takeReading _ _)
  case readingStale n k l =>
    unfold execReadingStale
    split
    · exact ActsOnly.none s
    · exact ActsOnly.none s
    · next i hi =>
      refine ActsOnly.of (setPresence s n _ fun hs j hj => ?_)
      cases hj
      simpa [State.markStale] using hs n i hi
  case silenceLimitReached n => exact ActsOnly.of (checkSilence _ _)
  case updateTimerExpiry =>
    exact ActsOnly.ite (ActsOnly.of (((post s _ _).trans (count _ _)).trans (setDetector _ _))) (ActsOnly.none s)
  case maxOpenTimerExpiry =>
    exact ActsOnly.ite (ActsOnly.of (((post s _ _).trans (count _ _)).trans (setDetector _ _))) (ActsOnly.none s)
  case sightTaken =>
    unfold execSightTaken
    split
    · exact ActsOnly.none s
    · refine ActsOnly.ite ?_ (took (Act.refl _))
      split
      · exact took (count _ _)
      · exact took (takeSight _ _)
  case approachCapExpiry o n =>
    unfold execApproachCapExpiry
    split
    · exact ActsOnly.none s
    · exact ActsOnly.ite (ActsOnly.none s) (ActsOnly.of ((setRecords s _).trans (judgePlume _ _)))
  case engulfCapExpiry o n =>
    unfold execEngulfCapExpiry
    split
    · exact ActsOnly.none s
    · exact ActsOnly.ite (ActsOnly.of (((setRecords s _).trans (count _ _)).trans (judgePlume _ _))) (ActsOnly.none s)
  case postHoldExpiry => exact ActsOnly.ite (ActsOnly.of (withdrawPlume _)) (ActsOnly.none s)
  case demandTaken =>
    unfold execDemandTaken
    split
    · exact ActsOnly.none s
    · exact ActsOnly.ite (took ((takeDemandEntry _ _).trans (reselect _))) (took (Act.refl _))
  case demandHoldExpiry n k =>
    unfold execDemandHoldExpiry
    split
    · exact ActsOnly.none s
    · exact ActsOnly.ite (ActsOnly.of (((removeEntry s n k).trans (count _ _)).trans (reselect _))) (ActsOnly.none s)
  case safeTaken =>
    unfold execSafeTaken
    split
    · exact ActsOnly.none s
    · exact ActsOnly.ite (took (takeSafe _ _)) (took (Act.refl _))
  case safeHoldExpiry n => exact ActsOnly.ite (ActsOnly.of (setSafe _ _)) (ActsOnly.none s)
  case demandRepeatExpiry n =>
    unfold execDemandRepeatExpiry
    dsimp only
    split
    · exact ActsOnly.none s
    · exact ActsOnly.ite (ActsOnly.of ((setEmitter s _ _).trans (post _ _ _))) (ActsOnly.none s)
  case safeRepeatExpiry => exact ActsOnly.ite (ActsOnly.of ((setSafeEmitter s _).trans (post _ _ _))) (ActsOnly.none s)
  case scrubTimerExpiry => exact ActsOnly.ite (ActsOnly.of (endScrub _)) (ActsOnly.none s)
  case checkTimerExpiry =>
    exact ActsOnly.ite (ActsOnly.ite (ActsOnly.of ((endScrub s).trans (count _ _)))
      (ActsOnly.of (Act.of (State.setScrub_only s _)))) (ActsOnly.none s)
  case settleTimerExpiry =>
    refine ActsOnly.ite (ActsOnly.of (Act.trans
      (t := { s with ramps := { s.ramps with settle := Option.none, settled := true } }) (Act.fields fun p hp => ?_)
      (stallCheck _))) (ActsOnly.none s)
    cases p <;> first | rfl | exact ⟨rfl, rfl⟩ | exact ⟨rfl, rfl, rfl⟩ | exact absurd (by decide) hp
  case accountingTimerExpiry =>
    unfold execAccountingTimerExpiry
    have h : Act s { s with accounting := { s.accounting with timer := some accountingTime } } :=
      Act.fields fun p hp => by cases p <;> first | rfl | exact ⟨rfl, rfl⟩ | exact ⟨rfl, rfl, rfl⟩ | exact absurd (by decide) hp
    refine ActsOnly.ite ?_ (ActsOnly.none s)
    dsimp only
    split
    · exact ActsOnly.of (h.trans (cabinSecond _))
    · exact ActsOnly.of (h.trans (inletSecond _))
    · exact ActsOnly.of h
  case statusTimerExpiry =>
    refine ActsOnly.ite (ActsOnly.of (Act.trans
      (t := { s with link := { s.link with status := some s.statusPeriod } }) (Act.fields fun p hp => ?_)
      (post _ _ _))) (ActsOnly.none s)
    cases p <;> first | rfl | exact ⟨rfl, rfl⟩ | exact ⟨rfl, rfl, rfl⟩ | exact absurd (by decide) hp
  case readingTimerExpiry =>
    unfold execReadingTimerExpiry
    refine ActsOnly.ite (ActsOnly.of (Act.trans (Act.fields fun p hp => ?_) (foldl postReading _ _))) (ActsOnly.none s)
    cases p <;> first | rfl | exact ⟨rfl, rfl⟩ | exact ⟨rfl, rfl, rfl⟩ | exact absurd (by decide) hp
  case guardExpiry => exact ActsOnly.ite (ActsOnly.of (setGuard _ _)) (ActsOnly.none s)
  case hushTaken =>
    unfold execHushTaken
    split
    · exact ActsOnly.none s
    · exact took (takeHush _ _)
  case stretchEnd part =>
    unfold execStretchEnd
    split
    · exact ActsOnly.ite (ActsOnly.of (endPeerStretch _)) (ActsOnly.none s)
    · exact ActsOnly.ite (ActsOnly.of (Act.of (State.setIntervalStretch_only s _))) (ActsOnly.none s)
  case frameDiscarded =>
    unfold execFrameDiscarded
    split
    · exact ActsOnly.none s
    · exact ActsOnly.ite (ActsOnly.none s)
        (ActsOnly.ite (took (count _ _)) (ActsOnly.ite (took (Act.refl _)) (ActsOnly.none s)))
  case query => exact ActsOnly.serve fun f => takeQuery _ _
  case clearCounters => exact ActsOnly.serve fun f => (answered s.dequeue f _).trans (Act.of (State.clearGroup_only _ _))
  case clearFlags => exact ActsOnly.serve fun f => (answered s.dequeue f _).trans (foldl (clearNamed _) _ _)
  case clearFilter => exact ActsOnly.serve fun f => unlessMoving ((answered s.dequeue f _).trans (clearFilter _))
  case resetPlume =>
    exact ActsOnly.serve fun f => unlessMoving (((answered s.dequeue f _).trans (resetTimelineRecords _)).trans
      (Act.of (State.resetDetector_only _)))
  case resetDemands => exact ActsOnly.serve fun f => unlessMoving ((answered s.dequeue f _).trans (resetDemands _))
  case lampTest => exact ActsOnly.serve fun f => (answered s.dequeue f _).trans (flag _ _ _ rfl)
  case unknownRequest => exact ActsOnly.serve fun f => answered _ _ _

end Sys2Proof.Machine
end

