-- ==== Sys2Proof/Laws/Notes.lean ====
section
/-! SUPPORT. The algebra of `Notes`: which single flags, counters and mailboxes an update touches, for the plain updates,
counting, flags, mailboxes and the choice of the frame on offer. -/

namespace Sys2Proof.Machine

open Sys2Proof

/-! ## Flags and counters have numbers of their own -/

theorem flag_index_inj {f g : Flag} (h : f.index = g.index) : f = g := by
  have hf : ∀ x : Flag, allFlags[x.index.val]? = some x := by
    intro x
    cases x <;> first | rfl | (next n => revert n; decide)
  exact Option.some.inj ((hf f).symm.trans (h ▸ hf g))

/-- The 62 counters in the order of R141. -/
def counterOfIndex (n : Nat) : Option Counter :=
  if n < 21 then
    let g : Exposure := if n < 7 then .pm else if n < 14 then .no2 else .co2
    if h : n % 7 < 6 then some (.bin g ⟨n % 7, h⟩) else some (.dose g)
  else
    [Counter.doorOpenings, .doorOpenSeconds, .scrubsStarted, .scrubsEndedEarly, .regimeSeconds .auto,
      .regimeSeconds .recirc, .regimeSeconds .flush, .regimeSeconds .scrub, .regimeSeconds .safe, .regimeSeconds .idle,
      .damperTravel, .plumeClosures, .sightingsOpened, .forcedCloses, .updatesQueued, .created, .duplicates, .ignored,
      .evicted, .dropped, .capped, .reverseDropped, .raised, .refreshed, .refused, .demandEvicted, .expired, .purged,
      .discarded, .framesSent, .sendFailures, .superseded, .withdrawals, .accepted, .rejected, .receiveOverflows,
      .unknownKinds, .hushSent, .hushHeard, .travelIgnored, .discontinuities][n - 21]?

theorem counterOfIndex_index (c : Counter) : counterOfIndex c.index.val = some c := by
  cases c with
  | bin g b => cases g <;> revert b <;> decide
  | dose g => cases g <;> rfl
  | regimeSeconds r => cases r <;> rfl
  | _ => rfl

theorem counter_index_inj {c d : Counter} (h : c.index = d.index) : c = d :=
  Option.some.inj ((counterOfIndex_index c).symm.trans (h ▸ counterOfIndex_index d))

theorem State.flag_writeFlag (s : State) (f g : Flag) (b : Bool) :
    (s.writeFlag f b).flag g = if f = g then b else s.flag g := by
  have h : (s.writeFlag f b).flag g = if f.index = g.index then b else s.flag g :=
    set_get s.flags.bits f.index g.index b
  rw [h]
  by_cases e : f = g
  · rw [if_pos e, if_pos (congrArg Flag.index e)]
  · rw [if_neg e, if_neg fun k => e (flag_index_inj k)]

theorem State.cell_writeFlag (s : State) (f : Flag) (b : Bool) (c : Counter) : (s.writeFlag f b).cell c = s.cell c := rfl

theorem State.cell_bump (s : State) (c d : Counter) (n : Nat) :
    (s.bump c n).cell d = if c = d then (s.cell c).add n else s.cell d := by
  have h : (s.bump c n).cell d = if c.index = d.index then (s.cell c).add n else s.cell d := by
    unfold State.bump
    dsimp only
    split
    · exact set_get s.accounting.counters c.index d.index _
    · exact set_get s.accounting.counters c.index d.index _
  rw [h]
  by_cases e : c = d
  · rw [if_pos e, if_pos (congrArg Counter.index e)]
  · rw [if_neg e, if_neg fun k => e (counter_index_inj k)]

theorem State.cell_count (s : State) (c d : Counter) :
    (s.count c).cell d = if c = d then (s.cell c).add 1 else s.cell d := s.cell_bump c d 1

theorem State.flag_bump_ne (s : State) (c : Counter) (n : Nat) (f : Flag) (h : f ≠ .counterRollover) :
    (s.bump c n).flag f = s.flag f := by
  unfold State.bump
  dsimp only
  split
  · rfl
  · rw [State.setFlag, State.flag_writeFlag, if_neg h.symm]; rfl

/-! ## The algebra -/

theorem Note.same_refl (n : Note) (s : State) : n.same s s := by cases n <;> rfl

theorem Note.same_trans {n : Note} {s t u : State} (h : n.same s t) (k : n.same t u) : n.same s u := by
  cases n <;> exact Eq.trans k h

theorem Notes.refl (ns : List Note) (s : State) : Notes ns s s := fun n _ => n.same_refl s

theorem Notes.mono {ns ms : List Note} {s t : State} (h : Notes ns s t) (hsub : ns ⊆ ms) : Notes ms s t :=
  fun n hn => h n fun hmem => hn (hsub hmem)

theorem Notes.trans {ns : List Note} {s t u : State} (h : Notes ns s t) (k : Notes ns t u) : Notes ns s u :=
  fun n hn => Note.same_trans (h n hn) (k n hn)

/-- Two updates, their lists both inside a third. -/
theorem Notes.seq {ns ms ks : List Note} {s t u : State} (h : Notes ns s t) (k : Notes ms t u) (hn : ns ⊆ ks)
    (hm : ms ⊆ ks) : Notes ks s u := (h.mono hn).trans (k.mono hm)

theorem Notes.ite {ns : List Note} {s t u : State} {c : Prop} [Decidable c] (h : Notes ns s t) (k : Notes ns s u) :
    Notes ns s (if c then t else u) := by split <;> assumption

theorem Notes.foldl {α : Type} {ns : List Note} {f : State → α → State} (h : ∀ s a, Notes ns s (f s a)) (l : List α)
    (s : State) : Notes ns s (l.foldl f s) := by
  induction l generalizing s with
  | nil => exact Notes.refl ns s
  | cons a as ih => exact (h s a).trans (ih (f s a))

/-- An update of other fields touches no flag, no counter and no mailbox. -/
theorem Notes.plain {ns : List Note} {s t : State} (hf : t.flags.bits = s.flags.bits)
    (hc : t.accounting.counters = s.accounting.counters) (hb : t.transmit.boxes = s.transmit.boxes) : Notes ns s t := by
  intro n _
  cases n with
  | flag f => exact congrArg (·[f.index]) hf
  | counter c => exact congrArg (·[c.index]) hc
  | box b => exact congrArg (fun x => x.keepOffered.held b) hb

theorem Boxes.held_map (b : Boxes) (x : Box) : b.keepOffered.held x = (b.held x).map Held.unmarked := by
  have ho : ∀ o : Option Held, (o.bind fun h => some { h with offered := false }).toList = o.toList.map Held.unmarked := by
    intro o; cases o <;> rfl
  cases x <;> simp only [Boxes.held, Boxes.keepOffered, Boxes.update, mapVector_get, ho, filterMap_unmarked]

namespace State

theorem writeFlag_notes (s : State) (f : Flag) (b : Bool) : Notes [.flag f] s (s.writeFlag f b) := by
  intro n hn
  cases n with
  | flag g =>
    simp only [List.mem_singleton, Note.flag.injEq] at hn
    exact (s.flag_writeFlag f g b).trans (if_neg fun e => hn e.symm)
  | counter c => rfl
  | box x => rfl

theorem bump_notes (s : State) (c : Counter) (n : Nat) :
    Notes [.counter c, .flag .counterRollover] s (s.bump c n) := by
  intro m hm
  simp only [List.mem_cons, List.not_mem_nil, or_false, not_or] at hm
  cases m with
  | flag g => exact s.flag_bump_ne c n g fun e => hm.2 (by rw [e])
  | counter d => exact (s.cell_bump c d n).trans (if_neg fun e => hm.1 (by rw [e]))
  | box x => unfold bump; dsimp only; split <;> rfl

theorem count_notes (s : State) (c : Counter) : Notes [.counter c, .flag .counterRollover] s (s.count c) :=
  s.bump_notes c 1

theorem held_put_ne (b : Boxes) (x y : Box) (h : Held) (hne : y ≠ x) : (b.put x h).held y = b.held y := by
  cases x <;> cases y <;> simp_all [Boxes.put, Boxes.held, Fin.ext_iff, eq_comm]

end State

namespace State

theorem hold_notes (s : State) (box : Box) (h : Held) : Notes (postNotes box) s (s.hold box h) := by
  have k : Notes (postNotes box) s
      { s with transmit := { s.transmit with boxes := s.transmit.boxes.put box h } } := by
    intro n hn
    cases n with
    | flag f => rfl
    | counter c => rfl
    | box y =>
      have hne : y ≠ box := fun e => hn (by simp [e])
      show (s.transmit.boxes.put box h).keepOffered.held y = _
      rw [Boxes.held_map, Boxes.held_map, held_put_ne _ _ _ _ hne]
  unfold hold
  exact Notes.ite (k.trans ((count_notes _ _).mono (by simp))) k

theorem post_notes (s : State) (box : Box) (f : Frame) : Notes (postNotes box) s (s.post box f) := by
  unfold post
  exact Notes.ite (Notes.refl _ _) (hold_notes _ _ _)

theorem chooseOffer_notes (s : State) : Notes [] s s.chooseOffer := by
  unfold chooseOffer
  split
  · intro n _
    cases n with
    | flag f => rfl
    | counter c => rfl
    | box y => exact congrArg (·.held y) (Boxes.keepOffered_mark _ _)
  · exact Notes.refl _ _

theorem chooseOffer_offer (s : State) (f : Frame) (h : s.transmit.offer = some f) : s.chooseOffer = s := by
  unfold chooseOffer
  split
  · next e _ => rw [h] at e; cases e
  · rfl

/-! ## The other plain updates -/

theorem dequeue_notes (s : State) : Notes [] s s.dequeue := Notes.plain rfl rfl rfl

theorem setDetector_notes (s : State) (d : Detector) : Notes [] s (s.setDetector d) := Notes.plain rfl rfl rfl

theorem setTracker_notes (s : State) (t : Tracker) : Notes [] s (s.setTracker t) := Notes.plain rfl rfl rfl

theorem setPresence_notes (s : State) (n : Fin 8) (x : Presence) : Notes [] s (s.setPresence n x) :=
  Notes.plain rfl rfl rfl

theorem raiseTally_notes (s : State) (n : Fin 8) : Notes [] s (s.raiseTally n) := Notes.plain rfl rfl rfl

theorem setRecords_notes (s : State) (rs : List PlumeRecord) : Notes [] s (s.setRecords rs) := Notes.plain rfl rfl rfl

theorem setHold_notes (s : State) (h : PlumeHold) (t : Timer) : Notes [] s (s.setHold h t) := Notes.plain rfl rfl rfl

theorem setEmitter_notes (s : State) (n : Fin 16) (e : Emitter) : Notes [] s (s.setEmitter n e) :=
  Notes.plain rfl rfl rfl

theorem setSafeEmitter_notes (s : State) (e : Emitter) : Notes [] s (s.setSafeEmitter e) := Notes.plain rfl rfl rfl

theorem setRecord_notes (s : State) (i : Fin 16) (r : SlotRecord) : Notes [] s (s.setRecord i r) :=
  Notes.plain rfl rfl rfl

theorem setRule_notes (s : State) (n : Fin 8) (r : RuleState) : Notes [] s (s.setRule n r) := Notes.plain rfl rfl rfl

theorem setScrub_notes (s : State) (x : Scrub) : Notes [] s { s with scrub := x } := Notes.plain rfl rfl rfl

theorem setFilter_notes (s : State) (a b c : Nat) : Notes [] s (s.setFilter a b c) := Notes.plain rfl rfl rfl

theorem setDemands_notes (s : State) (l : DemandList) : Notes [] s { s with demands := l } := Notes.plain rfl rfl rfl

theorem setMix_notes (s : State) (m : MixRecord) : Notes [] s { s with mix := m } := Notes.plain rfl rfl rfl

theorem setRegime_notes (s : State) (r : Regime) : Notes [] s { s with regime := r } := Notes.plain rfl rfl rfl

theorem latchStale_notes (s : State) : Notes [] s s.latchStale := Notes.plain rfl rfl rfl

theorem raisePeerStretch_notes (s : State) (a b : Nat) : Notes [] s (s.raisePeerStretch a b) := Notes.plain rfl rfl rfl

end State

/-! ## The frame of an event -/

/-- An event's frame, from what its effect touches and the choice that ends it. -/
theorem Changes.of {ps : List Part} {ns : List Note} {s t : State}
    (ho : Only (.offer :: .boxes :: .counters :: .flagBits :: ps) s t) (hn : Notes ns s t)
    (hf : t.transmit.offer = s.transmit.offer) : Changes ps ns s t.chooseOffer where
  parts := ho.trans (t.chooseOffer_only.mono (by simp))
  notes := hn.trans (t.chooseOffer_notes.mono (by simp))
  offer := fun f h => by rw [t.chooseOffer_offer f (hf.trans h)]; exact hf.trans h

end Sys2Proof.Machine
end

