-- ==== Sys2Proof/Laws/NotesOwners.lean ====
section
/-! SUPPORT. Which flags, counters and mailboxes the owners touch: the ramp unit, the mix law, the demand list, the
safe-source set, the emitters, the timeline, the detector, the peer table, the tracker, the rules, the sequencer, the
input unit, the accounting unit, the link controller and the requests. -/

namespace Sys2Proof.Machine

open Sys2Proof

namespace State

theorem startSettling_notes (s : State) : Notes [] s s.startSettling := Notes.plain rfl rfl rfl

theorem stopSettling_notes (s : State) : Notes [.flag .stall] s s.stopSettling :=
  (Notes.plain rfl rfl rfl : Notes [.flag .stall] s { s with ramps := { s.ramps with settle := none, settled := false } }).trans
    (writeFlag_notes _ _ _)

theorem damperChanged_notes (s : State) (c d : Channel) :
    Notes rampNotes s (s.damperChanged c d) := by
  unfold damperChanged
  have ht : Notes rampNotes s
      (if c.output = d.output then s else s.bump .damperTravel (distance c.output d.output)) :=
    Notes.ite (Notes.refl _ _) ((bump_notes _ _ _).mono (by simp))
  refine Notes.ite (Notes.ite ht (ht.trans ((stopSettling_notes _).mono (by simp)))) (Notes.ite ?_ (Notes.ite ht ?_))
  · exact ht.trans ((startSettling_notes _).mono (by simp))
  · exact ht.trans ((startSettling_notes _).seq (writeFlag_notes _ _ _) (by simp) (by simp))

theorem putChannel_notes (s : State) (n : RampName) (d : Channel) : Notes rampNotes s (s.putChannel n d) := by
  cases n
  · have h : Notes rampNotes s { s with ramps := { s.ramps with damper := d } } := Notes.plain rfl rfl rfl
    exact h.trans ((damperChanged_notes _ _ _).mono (by simp))
  · exact Notes.plain rfl rfl rfl

theorem takeTarget_notes (s : State) (n : RampName) (x : Nat) : Notes rampNotes s (s.takeTarget n x) := by
  unfold takeTarget
  exact Notes.ite (putChannel_notes _ _ _) (Notes.refl _ _)

theorem takeTargets_notes (s : State) (d b : Nat) : Notes rampNotes s (s.takeTargets d b) :=
  (takeTarget_notes _ _ _).trans (takeTarget_notes _ _ _)

theorem applySafePosition_notes (s : State) : Notes rampNotes s s.applySafePosition := by
  unfold applySafePosition
  exact Notes.ite (Notes.refl _ _) (Notes.ite ((putChannel_notes _ _ _).trans (putChannel_notes _ _ _))
    (takeTargets_notes _ _ _))

theorem stallCheck_notes (s : State) : Notes [.flag .stall] s s.stallCheck := by
  unfold stallCheck
  refine Notes.ite ?_ (Notes.refl _ _)
  split
  · exact Notes.refl _ _
  · exact Notes.ite (writeFlag_notes _ _ _) (Notes.refl _ _)

theorem handComputed_notes (s : State) (n : RampName) (a : Bool) (x y : Option Nat) :
    Notes rampNotes s (s.handComputed n a x y) := by
  unfold handComputed
  split
  · exact Notes.refl _ _
  · exact Notes.ite (takeTarget_notes _ _ _) (Notes.refl _ _)

theorem computeMix_notes (s : State) (a : Bool) : Notes rampNotes s (s.computeMix a) := by
  have hm (m : MixRecord) : Notes rampNotes s { s with mix := m } := (setMix_notes s m).mono (by simp)
  have hh (t : State) (n : RampName) (x y : Option Nat) : Notes rampNotes t (t.handComputed n a x y) :=
    (handComputed_notes _ _ _ _ _).mono (by simp)
  unfold computeMix
  refine Notes.ite ?_ (Notes.refl _ _)
  split
  · exact ((hm _).trans (hh _ _ _ _)).trans (hh _ _ _ _)
  · exact (hm _).trans (hh _ _ _ _)
  all_goals exact Notes.refl _ _

theorem mixNotice_notes (s : State) : Notes rampNotes s s.mixNotice := computeMix_notes s false

theorem handTargets_notes (s : State) : Notes rampNotes s s.handTargets := by
  have ht (d b : Nat) : Notes rampNotes s (s.takeTargets d b) := (takeTargets_notes s d b).mono (by simp)
  unfold handTargets
  split
  · exact computeMix_notes _ _
  · exact ((takeTarget_notes _ _ _).mono (by simp)).trans (computeMix_notes _ _)
  all_goals exact ht _ _

theorem reselect_notes (s : State) : Notes rampNotes s s.reselect := by
  have hr : Notes rampNotes s { s with regime := s.selectRegime } := (setRegime_notes _ _).mono (by simp)
  unfold reselect
  exact Notes.ite (Notes.refl _ _) (Notes.ite (hr.trans ((applySafePosition_notes _).mono (by simp)))
    (hr.trans ((handTargets_notes _).mono (by simp))))

theorem rederive_notes (s : State) : Notes rampNotes s s.rederive := by
  have hr : Notes rampNotes s { s with regime := s.selectRegime } := (setRegime_notes _ _).mono (by simp)
  unfold rederive
  exact Notes.ite (Notes.refl _ _) (hr.trans ((handTargets_notes _).mono (by simp)))

theorem setSafe_notes (s : State) (q : SafeSet) : Notes safeNotes s (s.setSafe q) := by
  have hq : Notes safeNotes s { s with safe := q } := Notes.plain rfl rfl rfl
  have hw (t : State) (b : Bool) : Notes safeNotes t (t.writeFlag .safeActive b) :=
    (writeFlag_notes _ _ _).mono (by simp)
  unfold setSafe
  refine Notes.ite (Notes.refl _ _) ?_
  dsimp only
  split
  · exact ((hq.trans ((setRegime_notes _ _).mono (by simp))).trans (hw _ _)).trans
      ((applySafePosition_notes _).mono (by simp))
  · exact (hq.trans (hw _ _)).trans ((rederive_notes _).mono (by simp))
  · exact hq

theorem setDemandsCount_notes (s : State) (l : DemandList) (c : Counter) :
    Notes [.counter c, .flag .counterRollover] s (({ s with demands := l } : State).count c) :=
  (setDemands_notes s l).seq (count_notes _ c) (by simp) (by simp)

theorem insertFor_notes (s : State) (v e : DemandEntry) : Notes entryNotes s (s.insertFor v e) :=
  (setDemandsCount_notes s _ _).seq (count_notes _ _) (by simp) (by simp)

theorem refuseDemand_notes (s : State) : Notes messageNotes s s.refuseDemand :=
  (count_notes _ _).seq (writeFlag_notes _ _ _) (by simp) (by simp)

theorem raiseMessage_notes (s : State) (e : DemandEntry) : Notes messageNotes s (s.raiseMessage e) := by
  unfold raiseMessage
  refine Notes.ite ((setDemandsCount_notes _ _ _).mono (by simp)) ?_
  split
  · exact refuseDemand_notes _
  · exact Notes.ite ((insertFor_notes _ _ _).mono (by simp)) (refuseDemand_notes _)

theorem refreshMessage_notes (s : State) (o e : DemandEntry) : Notes messageNotes s (s.refreshMessage o e) := by
  unfold refreshMessage
  exact Notes.ite ((setDemandsCount_notes _ _ _).mono (by simp)) ((setDemandsCount_notes _ _ _).mono (by simp))

theorem takeDemandEntry_notes (s : State) (f : Frame) : Notes messageNotes s (s.takeDemandEntry f) := by
  unfold takeDemandEntry
  refine Notes.ite ((count_notes _ _).mono (by simp)) (Notes.ite ((setDemands_notes _ _).mono (by simp)) ?_)
  split
  · exact Notes.refl _ _
  · split
    · exact raiseMessage_notes _ _
    · exact refreshMessage_notes _ _ _

theorem insertLocal_notes (s : State) (n : Fin 16) (r : DemandRegime) (l : Nat) :
    Notes entryNotes s (s.insertLocal n r l) := by
  unfold insertLocal
  refine Notes.ite (Notes.refl _ _) (Notes.ite ((setDemandsCount_notes _ _ _).mono (by simp)) ?_)
  split
  · exact Notes.refl _ _
  · exact insertFor_notes _ _ _

theorem raiseLocal_notes (s : State) (n : Fin 16) (r : DemandRegime) (l : Nat) : Notes listNotes s (s.raiseLocal n r l) :=
  (insertLocal_notes s n r l).seq (reselect_notes _) (by simp) (by simp)

theorem withdrawLocal_notes (s : State) (n : Fin 16) : Notes listNotes s (s.withdrawLocal n) := by
  unfold withdrawLocal
  exact Notes.ite (Notes.refl _ _) ((setDemands_notes _ _).seq (reselect_notes _) (by simp) (by simp))

theorem setLocal_notes (s : State) (n : Fin 16) (r : DemandRegime) (l : Nat) (b : Bool) :
    Notes listNotes s (s.setLocal n r l b) := by
  unfold setLocal
  exact Notes.ite (raiseLocal_notes _ _ _ _) (withdrawLocal_notes _ _)

theorem takeSafe_notes (s : State) (f : Frame) : Notes (.counter .discarded :: safeNotes) s (s.takeSafe f) := by
  unfold takeSafe
  exact Notes.ite ((count_notes _ _).mono (by simp))
    (Notes.ite ((setSafe_notes _ _).mono (by simp)) ((setSafe_notes _ _).mono (by simp)))

theorem purgePeer_notes (s : State) (n : Fin 8) : Notes purgeNotes s (s.purgePeer n) := by
  unfold purgePeer
  refine Notes.ite (Notes.refl _ _) ?_
  exact ((((setDemands_notes s _).mono (by simp)).trans ((bump_notes _ _ _).mono (by simp))).trans
    ((reselect_notes _).mono (by simp))).trans ((setSafe_notes _ _).mono (by simp))

theorem insertRule_notes (s : State) (n : Fin 8) : Notes entryNotes s (s.insertRule n) := by
  unfold insertRule
  split
  · exact Notes.ite (insertLocal_notes _ _ _ _) (Notes.refl _ _)
  all_goals exact Notes.refl _ _

theorem insertLocals_notes (s : State) : Notes entryNotes s s.insertLocals := by
  unfold insertLocals
  dsimp only
  have ha : Notes entryNotes s (if s.timeline.hold = .off then s else s.insertLocal 0 .recirc s.cfg.timeline.plumeLevel) :=
    Notes.ite (Notes.refl _ _) (insertLocal_notes _ _ _ _)
  refine Notes.trans ?_ (Notes.foldl insertRule_notes _ _)
  refine Notes.ite (Notes.trans ?_ (insertLocal_notes _ _ _ _)) ?_ <;>
    exact Notes.ite (ha.trans (insertLocal_notes _ _ _ _)) ha

theorem dropRemote_notes (s : State) : Notes [.flag .safeActive] s s.dropRemote := by
  have h : Notes [.flag .safeActive] s { s with safe := s.safe.localOnly } := Notes.plain rfl rfl rfl
  unfold dropRemote
  exact Notes.ite (h.trans ((writeFlag_notes _ _ _).mono (by simp))) h

theorem resetDemands_notes (s : State) : Notes resetNotes s s.resetDemands := by
  unfold resetDemands
  refine Notes.ite (Notes.refl _ _) ?_
  exact ((((setDemands_notes s _).mono (by simp)).trans ((insertLocals_notes _).mono (by simp))).trans
    ((dropRemote_notes _).mono (by simp))).trans ((rederive_notes _).mono (by simp))

end State

namespace State

/-! ## Emitters and door scrub -/

theorem emitterBegins_notes (s : State) (n : Fin 16) : Notes (postNotes (.demand n)) s (s.emitterBegins n) := by
  unfold emitterBegins
  split
  · exact Notes.refl _ _
  · exact Notes.ite ((setEmitter_notes _ _ _).seq (post_notes _ _ _) (by simp) (by simp)) (Notes.refl _ _)

theorem emitterEnds_notes (s : State) (n : Fin 16) : Notes (postNotes (.demand n)) s (s.emitterEnds n) := by
  unfold emitterEnds
  exact Notes.ite ((setEmitter_notes _ _ _).seq (post_notes _ _ _) (by simp) (by simp)) (Notes.refl _ _)

theorem safeReasonsChanged_notes (s : State) : Notes (postNotes .safe) s s.safeReasonsChanged := by
  have h (e : Emitter) (f : Frame) : Notes (postNotes .safe) s ((s.setSafeEmitter e).post .safe f) :=
    (setSafeEmitter_notes _ _).seq (post_notes _ _ _) (by simp) (by simp)
  unfold safeReasonsChanged
  exact Notes.ite (Notes.refl _ _) (Notes.ite (Notes.ite (Notes.refl _ _) (h _ _)) (Notes.ite (h _ _) (Notes.refl _ _)))

theorem conditionChanged_notes (s : State) (n : Fin 16) (r : DemandRegime) (l : Nat) (b : Bool) :
    Notes (conditionNotes n) s (s.conditionChanged n r l b) := by
  unfold conditionChanged
  exact Notes.ite ((setLocal_notes _ _ _ _ _).mono (by simp))
    (Notes.ite ((emitterBegins_notes _ _).mono (by simp)) ((emitterEnds_notes _ _).mono (by simp)))

theorem forceChanged_notes (s : State) : Notes forceNotes s s.forceChanged := by
  unfold forceChanged
  exact Notes.ite ((setSafe_notes _ _).mono (by simp)) ((safeReasonsChanged_notes _).mono (by simp))

theorem ruleSafeChanged_notes (s : State) : Notes forceNotes s s.ruleSafeChanged := by
  unfold ruleSafeChanged
  exact Notes.ite ((setSafe_notes _ _).mono (by simp)) ((safeReasonsChanged_notes _).mono (by simp))

theorem emitterTakes_notes (s : State) (n : Fin 16) : Notes (postNotes (.demand n)) s (s.emitterTakes n) := by
  unfold emitterTakes
  exact Notes.ite (emitterBegins_notes _ _) (Notes.refl _ _)

theorem emittersTake_notes (s : State) : Notes runNotes s s.emittersTake := by
  have h (t : State) (n : Fin 16) : Notes runNotes t (t.emitterTakes n) := (emitterTakes_notes t n).mono (by simp)
  exact (Notes.foldl h _ _).trans ((safeReasonsChanged_notes _).mono (by simp))

theorem startScrub_notes (s : State) : Notes scrubNotes s s.startScrub :=
  (((setScrub_notes s _).mono (by simp)).trans ((count_notes _ _).mono (by simp))).trans
    ((emitterBegins_notes _ _).mono (by simp))

theorem endScrub_notes (s : State) : Notes scrubNotes s s.endScrub :=
  (setScrub_notes s _).seq (emitterEnds_notes _ _) (by simp) (by simp)

theorem doorsChanged_notes (s : State) : Notes scrubNotes s s.doorsChanged := by
  unfold doorsChanged
  exact Notes.ite (Notes.ite (endScrub_notes _) (Notes.refl _ _)) (Notes.ite (startScrub_notes _) (Notes.refl _ _))

/-! ## Plume timeline -/

theorem raisePlume_notes (s : State) : Notes holdNotes s s.raisePlume :=
  (((setHold_notes s _ _).mono (by simp)).trans ((count_notes _ _).mono (by simp))).trans
    ((raiseLocal_notes _ _ _ _).mono (by simp))

theorem withdrawPlume_notes (s : State) : Notes holdNotes s s.withdrawPlume :=
  (setHold_notes s _ _).seq (withdrawLocal_notes _ _) (by simp) (by simp)

theorem startPostHold_notes (s : State) : Notes holdNotes s s.startPostHold := by
  unfold startPostHold
  exact Notes.ite (withdrawPlume_notes _) ((setHold_notes _ _ _).mono (by simp))

theorem judgePlume_notes (s : State) (b : Bool) : Notes holdNotes s (s.judgePlume b) := by
  unfold judgePlume
  dsimp only
  have ht : Notes holdNotes s
      (match s.timeline.hold with
      | .off => if b then s.raisePlume else s
      | .postHold => if b then s.setHold .held none else s
      | .held => s) := by
    split
    · exact Notes.ite (raisePlume_notes _) (Notes.refl _ _)
    · exact Notes.ite ((setHold_notes _ _ _).mono (by simp)) (Notes.refl _ _)
    · exact Notes.refl _ _
  exact Notes.ite (ht.trans (startPostHold_notes _)) ht

theorem judge_notes {ns : List Note} {s t : State} (h : Notes ns s t) (hs : holdNotes ⊆ ns) (b : Bool) :
    Notes ns s (t.judgePlume b) := h.trans ((judgePlume_notes t b).mono hs)

theorem refineSight_notes (s : State) (r : PlumeRecord) (m : Sight) : Notes (.counter .duplicates :: holdNotes) s (s.refineSight r m) := by
  unfold refineSight
  refine judge_notes ?_ (by simp) _
  exact Notes.ite ((setRecords_notes _ _).seq (count_notes _ _) (by simp) (by simp))
    ((setRecords_notes _ _).mono (by simp))

theorem setPlumes_notes (s : State) (rs : List PlumeRecord) (n : Nat) :
    Notes [] s { s with timeline := { s.timeline with records := rs, nextCreated := n } } := Notes.plain rfl rfl rfl

theorem createRecord_notes (s : State) (m : Sight) (o : Int) : Notes (.counter .created :: holdNotes) s (s.createRecord m o) :=
  judge_notes ((setPlumes_notes s _ _).seq (count_notes _ _) (by simp) (by simp)) (by simp) _

theorem dropSight_notes (s : State) : Notes [.counter .dropped, .flag .timelineOverflow, .flag .counterRollover] s s.dropSight :=
  (count_notes _ _).seq (writeFlag_notes _ _ _) (by simp) (by simp)

theorem admitSight_notes (s : State) (m : Sight) (o : Int) : Notes sightNotes s (s.admitSight m o) := by
  unfold admitSight
  refine Notes.ite ((createRecord_notes _ _ _).mono (by simp)) ?_
  split
  · exact (dropSight_notes _).mono (by simp)
  · refine Notes.ite ?_ ((dropSight_notes _).mono (by simp))
    exact (((setRecords_notes s _).mono (by simp)).trans ((count_notes _ _).mono (by simp))).trans
      ((createRecord_notes _ _ _).mono (by simp))

theorem takeSight_notes (s : State) (m : Sight) : Notes sightNotes s (s.takeSight m) := by
  unfold takeSight
  split
  · exact (count_notes _ _).mono (by simp)
  · refine Notes.ite ((count_notes _ _).mono (by simp)) ?_
    split
    · exact (refineSight_notes _ _ _).mono (by simp)
    · exact admitSight_notes _ _ _

theorem setMoved_notes (s : State) (rs : List PlumeRecord) (n : Nat) :
    Notes [] s { s with timeline := { s.timeline with records := rs, lead := n } } := Notes.plain rfl rfl rfl

theorem timelineTravel_notes (s : State) (d : Nat) (b : Bool) (v : Nat) : Notes travelNotes s (s.timelineTravel d b v) := by
  unfold timelineTravel
  exact Notes.ite (Notes.refl _ _) (judge_notes ((setMoved_notes s _ _).seq (bump_notes _ _ _) (by simp) (by simp)) (by simp) _)

theorem timelineLoss_notes (s : State) : Notes holdNotes s s.timelineLoss := by
  unfold timelineLoss
  exact Notes.ite (Notes.refl _ _) (judge_notes ((setRecords_notes s _).mono (by simp)) (by simp) _)

theorem resetTimelineRecords_notes (s : State) : Notes holdNotes s s.resetTimelineRecords := by
  unfold resetTimelineRecords
  exact Notes.ite (Notes.refl _ _) (Notes.ite ((setRecords_notes _ _).mono (by simp))
    ((setRecords_notes _ _).seq (withdrawPlume_notes _) (by simp) (by simp)))

/-! ## Sighting detector -/

theorem followBaselines_notes (s : State) : Notes [] s s.followBaselines := setDetector_notes _ _

theorem foldSighting_notes (s : State) : Notes [] s s.foldSighting := setDetector_notes _ _

theorem openSighting_notes (s : State) : Notes detectorNotes s s.openSighting :=
  (((setDetector_notes s _).mono (by simp)).trans ((post_notes _ _ _).mono (by simp))).trans
    ((count_notes _ _).mono (by simp))

theorem closeSighting_notes (s : State) : Notes detectorNotes s s.closeSighting :=
  (((setDetector_notes s _).mono (by simp)).trans ((post_notes _ _ _).mono (by simp))).trans
    ((followBaselines_notes _).mono (by simp))

theorem evaluateDetector_notes (s : State) : Notes detectorNotes s s.evaluateDetector := by
  have hd {t u : State} (h : Notes [] t u) : Notes detectorNotes t u := h.mono (by simp)
  unfold evaluateDetector
  dsimp only
  split
  · exact hd ((Notes.ite (setDetector_notes _ _) (Notes.refl _ _)).trans (followBaselines_notes _))
  · exact Notes.ite (openSighting_notes _) (hd ((setDetector_notes _ _).trans (followBaselines_notes _)))
  · exact Notes.ite (hd (foldSighting_notes _)) (hd ((foldSighting_notes _).trans (setDetector_notes _ _)))
  · exact Notes.ite (hd ((foldSighting_notes _).trans (setDetector_notes _ _)))
      ((hd (foldSighting_notes _)).trans (closeSighting_notes _))

theorem detectorSweep_notes (s : State) : Notes detectorNotes s s.detectorSweep := by
  unfold detectorSweep
  refine Notes.ite ?_ (Notes.refl _ _)
  split
  · exact evaluateDetector_notes _
  · exact (followBaselines_notes _).mono (by simp)
  · exact (followBaselines_notes _).mono (by simp)
  · exact Notes.refl _ _

theorem detectorTravel_notes (s : State) (d : Nat) (b : Bool) : Notes [] s (s.detectorTravel d b) := by
  unfold detectorTravel
  exact Notes.ite (setDetector_notes _ _) (Notes.refl _ _)

theorem detectorLost_notes (s : State) (b : Bool) : Notes [] s (s.detectorLost b) := by
  unfold detectorLost
  exact Notes.ite (setDetector_notes _ _) (Notes.refl _ _)

/-! ## Peer table -/

theorem roleChange_notes (s : State) (n : Fin 8) (p : Presence) : Notes purgeNotes s (s.roleChange n p) :=
  (setPresence_notes s n p).seq (purgePeer_notes _ _) (by simp) (by simp)

theorem takeStatusInfo_notes (s : State) (n : Fin 8) (i : PeerInfo) : Notes purgeNotes s (s.takeStatusInfo n i) := by
  have hs (t : State) (p : Presence) : Notes purgeNotes t (t.setPresence n p) := (setPresence_notes t n p).mono (by simp)
  unfold takeStatusInfo
  split
  · exact hs _ _
  · exact Notes.ite (hs _ _) ((roleChange_notes _ _ _).trans (hs _ _))
  · exact Notes.ite (hs _ _) ((roleChange_notes _ _ _).trans (hs _ _))

theorem noticeIfCabinChanged_notes (s b : State) : Notes rampNotes s (s.noticeIfCabinChanged b) := by
  unfold noticeIfCabinChanged
  exact Notes.ite (Notes.refl _ _) (mixNotice_notes _)

theorem takeStatus_notes (s : State) (f : Frame) : Notes statusNotes s (s.takeStatus f) := by
  unfold takeStatus
  split
  · exact (count_notes _ _).mono (by simp)
  · exact Notes.ite (Notes.refl _ _)
      (((takeStatusInfo_notes _ _ _).mono (by simp)).trans ((noticeIfCabinChanged_notes _ _).mono (by simp)))

theorem takeReading_notes (s : State) (f : Frame) : Notes (.counter .unknownKinds :: rampNotes) s (s.takeReading f) := by
  unfold takeReading
  split
  · exact Notes.refl _ _
  · exact Notes.refl _ _
  · split
    · exact (count_notes _ _).mono (by simp)
    · exact Notes.ite ((setPresence_notes _ _ _).seq (mixNotice_notes _) (by simp) (by simp))
        ((setPresence_notes _ _ _).mono (by simp))

theorem goSilent_notes (s : State) (n : Fin 8) : Notes silentNotes s (s.goSilent n) := by
  unfold goSilent
  split
  · exact Notes.refl _ _
  · exact Notes.refl _ _
  · next i _ =>
    dsimp only
    have h : Notes silentNotes s (((s.setPresence n (.silent i.silenced)).purgePeer n).raiseTally n |>.setFlag .peerLost) :=
      (((setPresence_notes s n _).mono (by simp)).trans ((purgePeer_notes _ n).mono (by simp))).trans
        (((raiseTally_notes _ n).mono (by simp)).trans ((writeFlag_notes _ .peerLost true).mono (by simp)))
    exact Notes.ite (Notes.trans h ((mixNotice_notes _).mono (by simp))) h

theorem checkSilence_notes (s : State) (n : Fin 8) : Notes silentNotes s (s.checkSilence n) := by
  unfold checkSilence
  split
  · exact Notes.refl _ _
  · exact Notes.refl _ _
  · exact Notes.ite (goSilent_notes _ _) (Notes.refl _ _)

theorem limitsFell_notes (s : State) : Notes silentNotes s s.limitsFell := Notes.foldl checkSilence_notes _ _

/-! ## Travel tracker -/

theorem travelNotice_notes (s : State) (d : Nat) (m : Travel) : Notes travelNotes s (s.travelNotice d m) :=
  (detectorTravel_notes _ _ _).seq (timelineTravel_notes _ _ _ _) (by simp) (by simp)

theorem ignitionNotice_notes (s : State) (b : Bool) : Notes rampNotes s (s.ignitionNotice b) := by
  unfold ignitionNotice
  exact Notes.ite (Notes.refl _ _) (reselect_notes _)

theorem trackerFollows_notes (s : State) (n : Fin 8) (m : Travel) (d : Nat) (o : TravelOrder) :
    Notes trackerNotes s (s.trackerFollows n m d o) := by
  have h0 : Notes trackerNotes s (s.setTracker (Tracker.follow s.cfg n m)) := (setTracker_notes _ _).mono (by simp)
  unfold trackerFollows
  dsimp only
  split
  · exact (h0.trans ((travelNotice_notes _ _ _).mono (by simp))).trans ((ignitionNotice_notes _ _).mono (by simp))
  · exact (h0.trans ((ignitionNotice_notes _ _).mono (by simp))).trans ((travelNotice_notes _ _ _).mono (by simp))

theorem trackerHears_notes (s : State) (n : Fin 8) (m : Travel) (o : TravelOrder) :
    Notes trackerNotes s (s.trackerHears n m o) := by
  unfold trackerHears
  refine Notes.ite ((setTracker_notes _ _).mono (by simp)) (Notes.ite (trackerFollows_notes _ _ _ _ _) ?_)
  exact Notes.trans ((count_notes s _).seq (writeFlag_notes _ _ _) (by simp) (by simp))
    (trackerFollows_notes _ _ _ _ _)

theorem trackerResyncs_notes (s : State) (n : Fin 8) (m : Travel) (o : TravelOrder) :
    Notes trackerNotes s (s.trackerResyncs n m o) :=
  Notes.trans ((writeFlag_notes s _ _).seq (detectorLost_notes _ _) (by simp) (by simp)) (trackerFollows_notes _ _ _ _ _)

theorem trackerTakes_notes (s : State) (n : Fin 8) (m : Travel) (o : TravelOrder) :
    Notes trackerNotes s (s.trackerTakes n m o) := by
  unfold trackerTakes
  split
  · exact trackerResyncs_notes _ _ _ _
  · exact trackerResyncs_notes _ _ _ _
  · exact trackerFollows_notes _ _ _ _ _
  · exact Notes.ite (trackerHears_notes _ _ _ _)
      (Notes.ite (trackerFollows_notes _ _ _ _ _) ((count_notes _ _).mono (by simp)))

/-! ## Rules -/

theorem ruleChanged_notes (s : State) (n : Fin 8) (b : Bool) : Notes ruleNotes s (s.ruleChanged n b) := by
  have hw : Notes ruleNotes s (s.writeFlag (.rule n) b) := (writeFlag_notes _ _ _).mono (by simp)
  unfold ruleChanged
  dsimp only
  split
  · exact hw
  · exact hw.trans ((conditionChanged_notes _ _ _ _ _).mono (by simp))
  · exact hw.trans ((ruleSafeChanged_notes _).mono (by simp))

theorem evaluateRule_notes (s : State) (n : Fin 8) : Notes ruleNotes s (s.evaluateRule n) := by
  unfold evaluateRule
  dsimp only
  refine Notes.ite ?_ (Notes.refl _ _)
  split
  · exact Notes.ite ((setRule_notes _ _ _).mono (by simp))
      (((setRule_notes _ _ _).mono (by simp)).trans (ruleChanged_notes _ _ _))
  · exact Notes.refl _ _

theorem evaluateRules_notes (s : State) : Notes ruleNotes s s.evaluateRules := by
  unfold evaluateRules
  exact Notes.ite (Notes.refl _ _) (Notes.foldl evaluateRule_notes _ _)

/-! ## Sequencer -/

theorem sweepEnd_notes (s : State) (o : SweepOrder) : Notes sweepEndNotes s (s.sweepEnd o) := by
  have h0 : Notes sweepEndNotes s s.detectorSweep := (detectorSweep_notes _).mono (by simp)
  have hr (t : State) : Notes sweepEndNotes t t.evaluateRules :=
    (evaluateRules_notes t).mono (List.subset_append_right _ _)
  have hm (t : State) : Notes sweepEndNotes t t.mixNotice := (mixNotice_notes t).mono (by simp)
  unfold sweepEnd
  dsimp only
  refine Notes.trans ?_ ((stallCheck_notes _).mono (by simp))
  split
  · exact (h0.trans (hr _)).trans (hm _)
  · exact (h0.trans (hm _)).trans (hr _)

theorem convertSlot_notes (s : State) (i : Fin 16) (c : Nat) :
    Notes [.flag .sensorFault] s (s.convertSlot i c) := by
  unfold convertSlot
  dsimp only
  split
  · exact Notes.refl _ _
  · exact (setRecord_notes s _ _).seq (writeFlag_notes _ _ _) (by simp) (by simp)

/-! ## Input unit -/

theorem handLevels_notes (s b : State) : Notes levelNotes s (s.handLevels b) := by
  have hc (t : State) (n : Fin 16) (r : DemandRegime) (l : Nat) (x : Bool) (h : n = 2 ∨ n = 3) :
      Notes levelNotes t (t.conditionChanged n r l x) := (conditionChanged_notes _ _ _ _ _).mono (by
    rcases h with rfl | rfl <;> decide)
  have hf (t : State) : Notes levelNotes t t.forceChanged := (forceChanged_notes t).mono (by simp)
  unfold handLevels
  refine Notes.ite (Notes.refl _ _) ?_
  dsimp only
  have ha : Notes levelNotes s (if s.anyDoorOpen = b.anyDoorOpen then s else s.doorsChanged) :=
    Notes.ite (Notes.refl _ _) ((doorsChanged_notes _).mono (by simp))
  have hb := Notes.ite (c := s.recircSwitch = b.recircSwitch) ha
    (ha.trans (hc _ 2 .recirc s.cfg.driverLevel s.recircSwitch (.inl rfl)))
  have hd := Notes.ite (c := s.flushSwitch = b.flushSwitch) hb
    (hb.trans (hc _ 3 .flush s.cfg.driverLevel s.flushSwitch (.inr rfl)))
  exact Notes.ite hd (hd.trans (hf _))

/-! ## Accounting -/

theorem exposureSecond_notes (s : State) (g : Exposure) : Notes cabinNotes s (s.exposureSecond g) := by
  have hb (t : State) (b : Fin 6) : Notes cabinNotes t (t.count (.bin g b)) :=
    (count_notes _ _).mono (by cases g <;> revert b <;> decide)
  unfold exposureSecond
  split
  · exact hb s 5
  · exact (hb s _).trans ((bump_notes _ _ _).mono (by cases g <;> decide))

theorem cabinSecond_notes (s : State) : Notes cabinNotes s s.cabinSecond := by
  have h := ((exposureSecond_notes s .pm).trans (exposureSecond_notes _ .no2)).trans (exposureSecond_notes _ .co2)
  unfold cabinSecond
  exact Notes.ite (h.trans ((count_notes _ _).mono (by decide))) h

theorem filterSecond_notes (s : State) : Notes [.flag .filterWorn] s s.filterSecond := by
  unfold filterSecond
  split
  · exact Notes.refl _ _
  · exact Notes.ite ((setFilter_notes _ _ _ _).mono (by simp))
      ((setFilter_notes s _ _ _).seq (writeFlag_notes _ _ _) (by simp) (by simp))

theorem inletSecond_notes (s : State) : Notes [.counter (.regimeSeconds s.regime), .flag .filterWorn, .flag .counterRollover] s s.inletSecond :=
  (count_notes s _).seq (filterSecond_notes _) (by simp) (by simp)

end State

namespace State

/-! ## Outcomes -/

theorem countSent_notes (s : State) (f : Frame) : Notes sentNotes s (s.countSent f) := by
  unfold countSent
  exact Notes.ite ((count_notes _ _).seq (count_notes _ _) (by simp) (by simp)) ((count_notes _ _).mono (by simp))

theorem setLink_notes (s : State) (n : Nat) (l : LinkState) : Notes [] s (s.setLink n l) := Notes.plain rfl rfl rfl

theorem setGuard_notes (s : State) (g : Option Guard) : Notes [] s (s.setGuard g) := Notes.plain rfl rfl rfl

theorem setQueue_notes (s : State) (q : List Frame) : Notes [] s (s.setQueue q) := Notes.plain rfl rfl rfl

theorem scoreSent_notes (s : State) : Notes [.flag .linkPassive] s s.scoreSent := by
  unfold scoreSent
  exact Notes.ite ((setLink_notes _ _ _).seq (writeFlag_notes _ _ _) (by simp) (by simp))
    ((setLink_notes _ _ _).mono (by simp))

theorem postReading_notes (s : State) (i : Fin 16) : Notes (postNotes (.reading i)) s (s.postReading i) := by
  unfold postReading
  exact Notes.ite (post_notes _ _ _) (Notes.refl _ _)

/-! ## Stretch, crowding, reception -/

theorem setPeerStretch_notes (s : State) (x : StretchFactor) :
    Notes [] s (s.setStretch { s.stretch with peer := x }) := Notes.plain rfl rfl rfl

theorem setIntervalStretch_notes (s : State) (x : StretchFactor) :
    Notes [] s (s.setStretch { s.stretch with interval := x }) := Notes.plain rfl rfl rfl

theorem takeHush_notes (s : State) (f : Frame) : Notes [.counter .hushHeard, .flag .counterRollover] s (s.takeHush f) := by
  have hc : Notes [.counter .hushHeard, .flag .counterRollover] s (s.count .hushHeard) := (count_notes _ _).mono (by simp)
  unfold takeHush
  dsimp only
  split
  · exact hc
  · exact hc.trans ((raisePeerStretch_notes _ _ _).seq (setIntervalStretch_notes _ _) (by simp) (by simp))

theorem endPeerStretch_notes (s : State) : Notes silentNotes s s.endPeerStretch := by
  have h0 : Notes silentNotes s (s.setStretch { s.stretch with peer := noStretch }) :=
    (setPeerStretch_notes _ _).mono (by simp)
  unfold endPeerStretch
  exact Notes.ite (h0.trans ((limitsFell_notes _).mono (by simp))) h0

theorem sendHush_notes (s : State) (b : Bool) : Notes crowdNotes s (s.sendHush b) :=
  (((setGuard_notes s _).mono (by simp)).trans ((post_notes _ _ _).mono (by simp))).trans
    ((raisePeerStretch_notes _ _ _).mono (by simp))

theorem crowding_notes (s : State) : Notes crowdNotes s s.crowding := by
  unfold crowding
  dsimp only
  refine Notes.ite (Notes.refl _ _) ?_
  split
  · exact sendHush_notes _ _
  · exact Notes.ite (sendHush_notes _ _) (Notes.refl _ _)

theorem overflow_notes (s : State) :
    Notes [.counter .receiveOverflows, .flag .rxqOverflow, .flag .counterRollover] s s.overflow :=
  (count_notes s _).seq (writeFlag_notes _ _ _) (by simp) (by simp)

theorem enqueue_notes (s : State) (f : Frame) : Notes queueNotes s (s.enqueue f) := by
  have hq (q : List Frame) : Notes queueNotes s (s.setQueue q) := (setQueue_notes _ _).mono (by simp)
  have ho (t : State) : Notes queueNotes t t.overflow := (overflow_notes t).mono (by simp)
  have hc (t : State) : Notes queueNotes t t.crowding := (crowding_notes t).mono (by simp)
  unfold enqueue
  exact Notes.ite (Notes.ite ((hq _).trans (hc _)) (hq _))
    (Notes.ite (((hq _).trans (ho _)).trans (hc _)) ((ho _).trans (hc _)))

theorem filterFrame_notes (s : State) (f : Frame) : Notes frameNotes s (s.filterFrame f) := by
  unfold filterFrame
  exact Notes.ite ((count_notes s _).seq (enqueue_notes _ _) (by simp) (by simp)) ((count_notes _ _).mono (by simp))

/-! ## Requests -/

theorem answer_notes (s : State) (f : Frame) (n : Nat) : Notes answerNotes s (s.answer f n) := hold_notes _ _ _

theorem unlessMoving_notes {ps : List Note} {act : State → Frame → State} (h : ∀ t g, Notes ps t (act t g))
    (hp : answerNotes ⊆ ps) (s : State) (f : Frame) : Notes ps s (s.unlessMoving f act) := by
  unfold unlessMoving
  exact Notes.ite ((answer_notes _ _ _).mono hp) (h _ _)

theorem clearNamed_notes (m : Nat) (s : State) (i : Fin 7) :
    Notes [.flag (latchedFlags.getD i.val .lampTest)] s (s.clearNamed m i) := by
  unfold clearNamed
  exact Notes.ite (writeFlag_notes _ _ _) (Notes.refl _ _)

theorem clearFilter_notes (s : State) : Notes [.flag .filterWorn] s s.clearFilter := by
  unfold clearFilter
  exact Notes.ite ((setFilter_notes s _ _ _).seq (writeFlag_notes _ _ _) (by simp) (by simp)) (Notes.refl _ _)

theorem resetDetector_notes (s : State) : Notes [] s s.resetDetector := by
  unfold resetDetector
  exact Notes.ite (setDetector_notes _ _) (Notes.refl _ _)

theorem queueItems_notes (f : Frame) (its : List Item) (n : Nat) (s : State) :
    Notes answerNotes s (s.queueItems f n its) := by
  induction its generalizing n s with
  | nil => exact Notes.refl _ _
  | cons it its ih => exact (hold_notes _ _ _).trans (ih _ _)

theorem takeQuery_notes (s : State) (f : Frame) : Notes answerNotes s (s.takeQuery f) := by
  unfold takeQuery
  refine Notes.ite ?_ (Notes.ite ?_ ?_)
  · split
    · exact answer_notes _ _ _
    · exact queueItems_notes _ _ _ _
  · exact ((count_notes s _).mono (by simp)).trans (answer_notes _ _ _)
  · exact (count_notes _ _).mono (by simp)

end State

end Sys2Proof.Machine
end

