-- ==== Sys2Proof/Laws/State.lean ====
section
/-! SUPPORT. The fields of a state after each named update, true by `rfl`: a later proof needs no record update unfolded. -/

namespace Sys2Proof.Machine.State

open Sys2Proof

@[simp] theorem writeFlag_fields (s : State) (f : Flag) (b : Bool) :
    (s.writeFlag f b).pending = s.pending ∧ (s.writeFlag f b).pins = s.pins ∧ (s.writeFlag f b).startup = s.startup ∧
    (s.writeFlag f b).cfg = s.cfg ∧ (s.writeFlag f b).sequencer = s.sequencer ∧ (s.writeFlag f b).inputs = s.inputs ∧
    (s.writeFlag f b).source = s.source ∧ (s.writeFlag f b).tracker = s.tracker ∧ (s.writeFlag f b).peers = s.peers ∧
    (s.writeFlag f b).detector = s.detector ∧ (s.writeFlag f b).timeline = s.timeline ∧
    (s.writeFlag f b).demands = s.demands ∧ (s.writeFlag f b).safe = s.safe ∧ (s.writeFlag f b).regime = s.regime ∧
    (s.writeFlag f b).emitters = s.emitters ∧ (s.writeFlag f b).scrub = s.scrub ∧ (s.writeFlag f b).mix = s.mix ∧
    (s.writeFlag f b).ramps = s.ramps ∧ (s.writeFlag f b).accounting = s.accounting ∧
    (s.writeFlag f b).rules = s.rules ∧
    (s.writeFlag f b).flags = { bits := s.flags.bits.set f.index b, alert := alertOf s.cfg (s.flags.bits.set f.index b) } ∧
    (s.writeFlag f b).transmit = s.transmit ∧ (s.writeFlag f b).link = s.link ∧
    (s.writeFlag f b).receive = s.receive ∧ (s.writeFlag f b).stretch = s.stretch := by
  refine ⟨?_, ?_, ?_, ?_, ?_, ?_, ?_, ?_, ?_, ?_, ?_, ?_, ?_, ?_, ?_, ?_, ?_, ?_, ?_, ?_, ?_, ?_, ?_, ?_, ?_⟩ <;> rfl

@[simp] theorem decideAlert_fields (s : State) :
    (s.decideAlert).pending = s.pending ∧ (s.decideAlert).pins = s.pins ∧ (s.decideAlert).startup = s.startup ∧
    (s.decideAlert).cfg = s.cfg ∧ (s.decideAlert).sequencer = s.sequencer ∧ (s.decideAlert).inputs = s.inputs ∧
    (s.decideAlert).source = s.source ∧ (s.decideAlert).tracker = s.tracker ∧ (s.decideAlert).peers = s.peers ∧
    (s.decideAlert).detector = s.detector ∧ (s.decideAlert).timeline = s.timeline ∧
    (s.decideAlert).demands = s.demands ∧ (s.decideAlert).safe = s.safe ∧ (s.decideAlert).regime = s.regime ∧
    (s.decideAlert).emitters = s.emitters ∧ (s.decideAlert).scrub = s.scrub ∧ (s.decideAlert).mix = s.mix ∧
    (s.decideAlert).ramps = s.ramps ∧ (s.decideAlert).accounting = s.accounting ∧ (s.decideAlert).rules = s.rules ∧
    (s.decideAlert).flags = { s.flags with alert := alertOf s.cfg s.flags.bits } ∧
    (s.decideAlert).transmit = s.transmit ∧ (s.decideAlert).link = s.link ∧ (s.decideAlert).receive = s.receive ∧
    (s.decideAlert).stretch = s.stretch := by
  refine ⟨?_, ?_, ?_, ?_, ?_, ?_, ?_, ?_, ?_, ?_, ?_, ?_, ?_, ?_, ?_, ?_, ?_, ?_, ?_, ?_, ?_, ?_, ?_, ?_, ?_⟩ <;> rfl

@[simp] theorem dequeue_fields (s : State) :
    (s.dequeue).pending = s.pending ∧ (s.dequeue).pins = s.pins ∧ (s.dequeue).startup = s.startup ∧
    (s.dequeue).cfg = s.cfg ∧ (s.dequeue).sequencer = s.sequencer ∧ (s.dequeue).inputs = s.inputs ∧
    (s.dequeue).source = s.source ∧ (s.dequeue).tracker = s.tracker ∧ (s.dequeue).peers = s.peers ∧
    (s.dequeue).detector = s.detector ∧ (s.dequeue).timeline = s.timeline ∧ (s.dequeue).demands = s.demands ∧
    (s.dequeue).safe = s.safe ∧ (s.dequeue).regime = s.regime ∧ (s.dequeue).emitters = s.emitters ∧
    (s.dequeue).scrub = s.scrub ∧ (s.dequeue).mix = s.mix ∧ (s.dequeue).ramps = s.ramps ∧
    (s.dequeue).accounting = s.accounting ∧ (s.dequeue).rules = s.rules ∧ (s.dequeue).flags = s.flags ∧
    (s.dequeue).transmit = s.transmit ∧ (s.dequeue).link = s.link ∧
    (s.dequeue).receive = { s.receive with queue := s.receive.queue.drop 1 } ∧ (s.dequeue).stretch = s.stretch := by
  refine ⟨?_, ?_, ?_, ?_, ?_, ?_, ?_, ?_, ?_, ?_, ?_, ?_, ?_, ?_, ?_, ?_, ?_, ?_, ?_, ?_, ?_, ?_, ?_, ?_, ?_⟩ <;> rfl

@[simp] theorem setDetector_fields (s : State) (d : Detector) :
    (s.setDetector d).pending = s.pending ∧ (s.setDetector d).pins = s.pins ∧ (s.setDetector d).startup = s.startup ∧
    (s.setDetector d).cfg = s.cfg ∧ (s.setDetector d).sequencer = s.sequencer ∧ (s.setDetector d).inputs = s.inputs ∧
    (s.setDetector d).source = s.source ∧ (s.setDetector d).tracker = s.tracker ∧ (s.setDetector d).peers = s.peers ∧
    (s.setDetector d).detector = d ∧ (s.setDetector d).timeline = s.timeline ∧ (s.setDetector d).demands = s.demands ∧
    (s.setDetector d).safe = s.safe ∧ (s.setDetector d).regime = s.regime ∧ (s.setDetector d).emitters = s.emitters ∧
    (s.setDetector d).scrub = s.scrub ∧ (s.setDetector d).mix = s.mix ∧ (s.setDetector d).ramps = s.ramps ∧
    (s.setDetector d).accounting = s.accounting ∧ (s.setDetector d).rules = s.rules ∧
    (s.setDetector d).flags = s.flags ∧ (s.setDetector d).transmit = s.transmit ∧ (s.setDetector d).link = s.link ∧
    (s.setDetector d).receive = s.receive ∧ (s.setDetector d).stretch = s.stretch := by
  refine ⟨?_, ?_, ?_, ?_, ?_, ?_, ?_, ?_, ?_, ?_, ?_, ?_, ?_, ?_, ?_, ?_, ?_, ?_, ?_, ?_, ?_, ?_, ?_, ?_, ?_⟩ <;> rfl

@[simp] theorem setTracker_fields (s : State) (t : Tracker) :
    (s.setTracker t).pending = s.pending ∧ (s.setTracker t).pins = s.pins ∧ (s.setTracker t).startup = s.startup ∧
    (s.setTracker t).cfg = s.cfg ∧ (s.setTracker t).sequencer = s.sequencer ∧ (s.setTracker t).inputs = s.inputs ∧
    (s.setTracker t).source = s.source ∧ (s.setTracker t).tracker = t ∧ (s.setTracker t).peers = s.peers ∧
    (s.setTracker t).detector = s.detector ∧ (s.setTracker t).timeline = s.timeline ∧
    (s.setTracker t).demands = s.demands ∧ (s.setTracker t).safe = s.safe ∧ (s.setTracker t).regime = s.regime ∧
    (s.setTracker t).emitters = s.emitters ∧ (s.setTracker t).scrub = s.scrub ∧ (s.setTracker t).mix = s.mix ∧
    (s.setTracker t).ramps = s.ramps ∧ (s.setTracker t).accounting = s.accounting ∧ (s.setTracker t).rules = s.rules ∧
    (s.setTracker t).flags = s.flags ∧ (s.setTracker t).transmit = s.transmit ∧ (s.setTracker t).link = s.link ∧
    (s.setTracker t).receive = s.receive ∧ (s.setTracker t).stretch = s.stretch := by
  refine ⟨?_, ?_, ?_, ?_, ?_, ?_, ?_, ?_, ?_, ?_, ?_, ?_, ?_, ?_, ?_, ?_, ?_, ?_, ?_, ?_, ?_, ?_, ?_, ?_, ?_⟩ <;> rfl

@[simp] theorem setPresence_fields (s : State) (n : Fin 8) (x : Presence) :
    (s.setPresence n x).pending = s.pending ∧ (s.setPresence n x).pins = s.pins ∧
    (s.setPresence n x).startup = s.startup ∧ (s.setPresence n x).cfg = s.cfg ∧
    (s.setPresence n x).sequencer = s.sequencer ∧ (s.setPresence n x).inputs = s.inputs ∧
    (s.setPresence n x).source = s.source ∧ (s.setPresence n x).tracker = s.tracker ∧
    (s.setPresence n x).peers = s.peers.set n { s.peers[n] with presence := x } ∧
    (s.setPresence n x).detector = s.detector ∧ (s.setPresence n x).timeline = s.timeline ∧
    (s.setPresence n x).demands = s.demands ∧ (s.setPresence n x).safe = s.safe ∧
    (s.setPresence n x).regime = s.regime ∧ (s.setPresence n x).emitters = s.emitters ∧
    (s.setPresence n x).scrub = s.scrub ∧ (s.setPresence n x).mix = s.mix ∧ (s.setPresence n x).ramps = s.ramps ∧
    (s.setPresence n x).accounting = s.accounting ∧ (s.setPresence n x).rules = s.rules ∧
    (s.setPresence n x).flags = s.flags ∧ (s.setPresence n x).transmit = s.transmit ∧
    (s.setPresence n x).link = s.link ∧ (s.setPresence n x).receive = s.receive ∧
    (s.setPresence n x).stretch = s.stretch := by
  refine ⟨?_, ?_, ?_, ?_, ?_, ?_, ?_, ?_, ?_, ?_, ?_, ?_, ?_, ?_, ?_, ?_, ?_, ?_, ?_, ?_, ?_, ?_, ?_, ?_, ?_⟩ <;> rfl

@[simp] theorem setRecords_fields (s : State) (rs : List PlumeRecord) :
    (s.setRecords rs).pending = s.pending ∧ (s.setRecords rs).pins = s.pins ∧ (s.setRecords rs).startup = s.startup ∧
    (s.setRecords rs).cfg = s.cfg ∧ (s.setRecords rs).sequencer = s.sequencer ∧ (s.setRecords rs).inputs = s.inputs ∧
    (s.setRecords rs).source = s.source ∧ (s.setRecords rs).tracker = s.tracker ∧ (s.setRecords rs).peers = s.peers ∧
    (s.setRecords rs).detector = s.detector ∧ (s.setRecords rs).timeline = { s.timeline with records := rs } ∧
    (s.setRecords rs).demands = s.demands ∧ (s.setRecords rs).safe = s.safe ∧ (s.setRecords rs).regime = s.regime ∧
    (s.setRecords rs).emitters = s.emitters ∧ (s.setRecords rs).scrub = s.scrub ∧ (s.setRecords rs).mix = s.mix ∧
    (s.setRecords rs).ramps = s.ramps ∧ (s.setRecords rs).accounting = s.accounting ∧
    (s.setRecords rs).rules = s.rules ∧ (s.setRecords rs).flags = s.flags ∧ (s.setRecords rs).transmit = s.transmit ∧
    (s.setRecords rs).link = s.link ∧ (s.setRecords rs).receive = s.receive ∧ (s.setRecords rs).stretch = s.stretch := by
  refine ⟨?_, ?_, ?_, ?_, ?_, ?_, ?_, ?_, ?_, ?_, ?_, ?_, ?_, ?_, ?_, ?_, ?_, ?_, ?_, ?_, ?_, ?_, ?_, ?_, ?_⟩ <;> rfl

@[simp] theorem setHold_fields (s : State) (h : PlumeHold) (t : Timer) :
    (s.setHold h t).pending = s.pending ∧ (s.setHold h t).pins = s.pins ∧ (s.setHold h t).startup = s.startup ∧
    (s.setHold h t).cfg = s.cfg ∧ (s.setHold h t).sequencer = s.sequencer ∧ (s.setHold h t).inputs = s.inputs ∧
    (s.setHold h t).source = s.source ∧ (s.setHold h t).tracker = s.tracker ∧ (s.setHold h t).peers = s.peers ∧
    (s.setHold h t).detector = s.detector ∧ (s.setHold h t).timeline = { s.timeline with hold := h, postHold := t } ∧
    (s.setHold h t).demands = s.demands ∧ (s.setHold h t).safe = s.safe ∧ (s.setHold h t).regime = s.regime ∧
    (s.setHold h t).emitters = s.emitters ∧ (s.setHold h t).scrub = s.scrub ∧ (s.setHold h t).mix = s.mix ∧
    (s.setHold h t).ramps = s.ramps ∧ (s.setHold h t).accounting = s.accounting ∧ (s.setHold h t).rules = s.rules ∧
    (s.setHold h t).flags = s.flags ∧ (s.setHold h t).transmit = s.transmit ∧ (s.setHold h t).link = s.link ∧
    (s.setHold h t).receive = s.receive ∧ (s.setHold h t).stretch = s.stretch := by
  refine ⟨?_, ?_, ?_, ?_, ?_, ?_, ?_, ?_, ?_, ?_, ?_, ?_, ?_, ?_, ?_, ?_, ?_, ?_, ?_, ?_, ?_, ?_, ?_, ?_, ?_⟩ <;> rfl

@[simp] theorem setEmitter_fields (s : State) (n : Fin 16) (e : Emitter) :
    (s.setEmitter n e).pending = s.pending ∧ (s.setEmitter n e).pins = s.pins ∧
    (s.setEmitter n e).startup = s.startup ∧ (s.setEmitter n e).cfg = s.cfg ∧
    (s.setEmitter n e).sequencer = s.sequencer ∧ (s.setEmitter n e).inputs = s.inputs ∧
    (s.setEmitter n e).source = s.source ∧ (s.setEmitter n e).tracker = s.tracker ∧
    (s.setEmitter n e).peers = s.peers ∧ (s.setEmitter n e).detector = s.detector ∧
    (s.setEmitter n e).timeline = s.timeline ∧ (s.setEmitter n e).demands = s.demands ∧
    (s.setEmitter n e).safe = s.safe ∧ (s.setEmitter n e).regime = s.regime ∧
    (s.setEmitter n e).emitters = { s.emitters with demand := s.emitters.demand.set n e } ∧
    (s.setEmitter n e).scrub = s.scrub ∧ (s.setEmitter n e).mix = s.mix ∧ (s.setEmitter n e).ramps = s.ramps ∧
    (s.setEmitter n e).accounting = s.accounting ∧ (s.setEmitter n e).rules = s.rules ∧
    (s.setEmitter n e).flags = s.flags ∧ (s.setEmitter n e).transmit = s.transmit ∧ (s.setEmitter n e).link = s.link ∧
    (s.setEmitter n e).receive = s.receive ∧ (s.setEmitter n e).stretch = s.stretch := by
  refine ⟨?_, ?_, ?_, ?_, ?_, ?_, ?_, ?_, ?_, ?_, ?_, ?_, ?_, ?_, ?_, ?_, ?_, ?_, ?_, ?_, ?_, ?_, ?_, ?_, ?_⟩ <;> rfl

@[simp] theorem setSafeEmitter_fields (s : State) (e : Emitter) :
    (s.setSafeEmitter e).pending = s.pending ∧ (s.setSafeEmitter e).pins = s.pins ∧
    (s.setSafeEmitter e).startup = s.startup ∧ (s.setSafeEmitter e).cfg = s.cfg ∧
    (s.setSafeEmitter e).sequencer = s.sequencer ∧ (s.setSafeEmitter e).inputs = s.inputs ∧
    (s.setSafeEmitter e).source = s.source ∧ (s.setSafeEmitter e).tracker = s.tracker ∧
    (s.setSafeEmitter e).peers = s.peers ∧ (s.setSafeEmitter e).detector = s.detector ∧
    (s.setSafeEmitter e).timeline = s.timeline ∧ (s.setSafeEmitter e).demands = s.demands ∧
    (s.setSafeEmitter e).safe = s.safe ∧ (s.setSafeEmitter e).regime = s.regime ∧
    (s.setSafeEmitter e).emitters = { s.emitters with safe := e } ∧ (s.setSafeEmitter e).scrub = s.scrub ∧
    (s.setSafeEmitter e).mix = s.mix ∧ (s.setSafeEmitter e).ramps = s.ramps ∧
    (s.setSafeEmitter e).accounting = s.accounting ∧ (s.setSafeEmitter e).rules = s.rules ∧
    (s.setSafeEmitter e).flags = s.flags ∧ (s.setSafeEmitter e).transmit = s.transmit ∧
    (s.setSafeEmitter e).link = s.link ∧ (s.setSafeEmitter e).receive = s.receive ∧
    (s.setSafeEmitter e).stretch = s.stretch := by
  refine ⟨?_, ?_, ?_, ?_, ?_, ?_, ?_, ?_, ?_, ?_, ?_, ?_, ?_, ?_, ?_, ?_, ?_, ?_, ?_, ?_, ?_, ?_, ?_, ?_, ?_⟩ <;> rfl

@[simp] theorem setRecord_fields (s : State) (i : Fin 16) (r : SlotRecord) :
    (s.setRecord i r).pending = s.pending ∧ (s.setRecord i r).pins = s.pins ∧ (s.setRecord i r).startup = s.startup ∧
    (s.setRecord i r).cfg = s.cfg ∧
    (s.setRecord i r).sequencer = { s.sequencer with records := s.sequencer.records.set i r } ∧
    (s.setRecord i r).inputs = s.inputs ∧ (s.setRecord i r).source = s.source ∧
    (s.setRecord i r).tracker = s.tracker ∧ (s.setRecord i r).peers = s.peers ∧
    (s.setRecord i r).detector = s.detector ∧ (s.setRecord i r).timeline = s.timeline ∧
    (s.setRecord i r).demands = s.demands ∧ (s.setRecord i r).safe = s.safe ∧ (s.setRecord i r).regime = s.regime ∧
    (s.setRecord i r).emitters = s.emitters ∧ (s.setRecord i r).scrub = s.scrub ∧ (s.setRecord i r).mix = s.mix ∧
    (s.setRecord i r).ramps = s.ramps ∧ (s.setRecord i r).accounting = s.accounting ∧
    (s.setRecord i r).rules = s.rules ∧ (s.setRecord i r).flags = s.flags ∧ (s.setRecord i r).transmit = s.transmit ∧
    (s.setRecord i r).link = s.link ∧ (s.setRecord i r).receive = s.receive ∧ (s.setRecord i r).stretch = s.stretch := by
  refine ⟨?_, ?_, ?_, ?_, ?_, ?_, ?_, ?_, ?_, ?_, ?_, ?_, ?_, ?_, ?_, ?_, ?_, ?_, ?_, ?_, ?_, ?_, ?_, ?_, ?_⟩ <;> rfl

@[simp] theorem setRule_fields (s : State) (n : Fin 8) (r : RuleState) :
    (s.setRule n r).pending = s.pending ∧ (s.setRule n r).pins = s.pins ∧ (s.setRule n r).startup = s.startup ∧
    (s.setRule n r).cfg = s.cfg ∧ (s.setRule n r).sequencer = s.sequencer ∧ (s.setRule n r).inputs = s.inputs ∧
    (s.setRule n r).source = s.source ∧ (s.setRule n r).tracker = s.tracker ∧ (s.setRule n r).peers = s.peers ∧
    (s.setRule n r).detector = s.detector ∧ (s.setRule n r).timeline = s.timeline ∧
    (s.setRule n r).demands = s.demands ∧ (s.setRule n r).safe = s.safe ∧ (s.setRule n r).regime = s.regime ∧
    (s.setRule n r).emitters = s.emitters ∧ (s.setRule n r).scrub = s.scrub ∧ (s.setRule n r).mix = s.mix ∧
    (s.setRule n r).ramps = s.ramps ∧ (s.setRule n r).accounting = s.accounting ∧
    (s.setRule n r).rules = s.rules.set n r ∧ (s.setRule n r).flags = s.flags ∧
    (s.setRule n r).transmit = s.transmit ∧ (s.setRule n r).link = s.link ∧ (s.setRule n r).receive = s.receive ∧
    (s.setRule n r).stretch = s.stretch := by
  refine ⟨?_, ?_, ?_, ?_, ?_, ?_, ?_, ?_, ?_, ?_, ?_, ?_, ?_, ?_, ?_, ?_, ?_, ?_, ?_, ?_, ?_, ?_, ?_, ?_, ?_⟩ <;> rfl

@[simp] theorem startDwell_fields (s : State) (i : Fin 16) :
    (s.startDwell i).pending = s.pending ∧ (s.startDwell i).pins = s.pins ∧ (s.startDwell i).startup = s.startup ∧
    (s.startDwell i).cfg = s.cfg ∧
    (s.startDwell i).sequencer = { s.sequencer with position := i, dwell := some s.cfg.slots[i].dwell.ms } ∧
    (s.startDwell i).inputs = s.inputs ∧ (s.startDwell i).source = s.source ∧ (s.startDwell i).tracker = s.tracker ∧
    (s.startDwell i).peers = s.peers ∧ (s.startDwell i).detector = s.detector ∧
    (s.startDwell i).timeline = s.timeline ∧ (s.startDwell i).demands = s.demands ∧ (s.startDwell i).safe = s.safe ∧
    (s.startDwell i).regime = s.regime ∧ (s.startDwell i).emitters = s.emitters ∧ (s.startDwell i).scrub = s.scrub ∧
    (s.startDwell i).mix = s.mix ∧ (s.startDwell i).ramps = s.ramps ∧ (s.startDwell i).accounting = s.accounting ∧
    (s.startDwell i).rules = s.rules ∧ (s.startDwell i).flags = s.flags ∧ (s.startDwell i).transmit = s.transmit ∧
    (s.startDwell i).link = s.link ∧ (s.startDwell i).receive = s.receive ∧ (s.startDwell i).stretch = s.stretch := by
  refine ⟨?_, ?_, ?_, ?_, ?_, ?_, ?_, ?_, ?_, ?_, ?_, ?_, ?_, ?_, ?_, ?_, ?_, ?_, ?_, ?_, ?_, ?_, ?_, ?_, ?_⟩ <;> rfl

@[simp] theorem setFilter_fields (s : State) (a b c : Nat) :
    (s.setFilter a b c).pending = s.pending ∧ (s.setFilter a b c).pins = s.pins ∧
    (s.setFilter a b c).startup = s.startup ∧ (s.setFilter a b c).cfg = s.cfg ∧
    (s.setFilter a b c).sequencer = s.sequencer ∧ (s.setFilter a b c).inputs = s.inputs ∧
    (s.setFilter a b c).source = s.source ∧ (s.setFilter a b c).tracker = s.tracker ∧
    (s.setFilter a b c).peers = s.peers ∧ (s.setFilter a b c).detector = s.detector ∧
    (s.setFilter a b c).timeline = s.timeline ∧ (s.setFilter a b c).demands = s.demands ∧
    (s.setFilter a b c).safe = s.safe ∧ (s.setFilter a b c).regime = s.regime ∧
    (s.setFilter a b c).emitters = s.emitters ∧ (s.setFilter a b c).scrub = s.scrub ∧
    (s.setFilter a b c).mix = s.mix ∧ (s.setFilter a b c).ramps = s.ramps ∧
    (s.setFilter a b c).accounting = { s.accounting with carry := a, ngAccumulator := b, mgCount := c } ∧
    (s.setFilter a b c).rules = s.rules ∧ (s.setFilter a b c).flags = s.flags ∧
    (s.setFilter a b c).transmit = s.transmit ∧ (s.setFilter a b c).link = s.link ∧
    (s.setFilter a b c).receive = s.receive ∧ (s.setFilter a b c).stretch = s.stretch := by
  refine ⟨?_, ?_, ?_, ?_, ?_, ?_, ?_, ?_, ?_, ?_, ?_, ?_, ?_, ?_, ?_, ?_, ?_, ?_, ?_, ?_, ?_, ?_, ?_, ?_, ?_⟩ <;> rfl

@[simp] theorem setLink_fields (s : State) (n : Nat) (l : LinkState) :
    (s.setLink n l).pending = s.pending ∧ (s.setLink n l).pins = s.pins ∧ (s.setLink n l).startup = s.startup ∧
    (s.setLink n l).cfg = s.cfg ∧ (s.setLink n l).sequencer = s.sequencer ∧ (s.setLink n l).inputs = s.inputs ∧
    (s.setLink n l).source = s.source ∧ (s.setLink n l).tracker = s.tracker ∧ (s.setLink n l).peers = s.peers ∧
    (s.setLink n l).detector = s.detector ∧ (s.setLink n l).timeline = s.timeline ∧
    (s.setLink n l).demands = s.demands ∧ (s.setLink n l).safe = s.safe ∧ (s.setLink n l).regime = s.regime ∧
    (s.setLink n l).emitters = s.emitters ∧ (s.setLink n l).scrub = s.scrub ∧ (s.setLink n l).mix = s.mix ∧
    (s.setLink n l).ramps = s.ramps ∧ (s.setLink n l).accounting = s.accounting ∧ (s.setLink n l).rules = s.rules ∧
    (s.setLink n l).flags = s.flags ∧ (s.setLink n l).transmit = s.transmit ∧
    (s.setLink n l).link = { s.link with score := n, state := l } ∧ (s.setLink n l).receive = s.receive ∧
    (s.setLink n l).stretch = s.stretch := by
  refine ⟨?_, ?_, ?_, ?_, ?_, ?_, ?_, ?_, ?_, ?_, ?_, ?_, ?_, ?_, ?_, ?_, ?_, ?_, ?_, ?_, ?_, ?_, ?_, ?_, ?_⟩ <;> rfl

@[simp] theorem settleOffer_fields (s : State) (b : Boxes) :
    (s.settleOffer b).pending = s.pending ∧ (s.settleOffer b).pins = s.pins ∧ (s.settleOffer b).startup = s.startup ∧
    (s.settleOffer b).cfg = s.cfg ∧ (s.settleOffer b).sequencer = s.sequencer ∧ (s.settleOffer b).inputs = s.inputs ∧
    (s.settleOffer b).source = s.source ∧ (s.settleOffer b).tracker = s.tracker ∧ (s.settleOffer b).peers = s.peers ∧
    (s.settleOffer b).detector = s.detector ∧ (s.settleOffer b).timeline = s.timeline ∧
    (s.settleOffer b).demands = s.demands ∧ (s.settleOffer b).safe = s.safe ∧ (s.settleOffer b).regime = s.regime ∧
    (s.settleOffer b).emitters = s.emitters ∧ (s.settleOffer b).scrub = s.scrub ∧ (s.settleOffer b).mix = s.mix ∧
    (s.settleOffer b).ramps = s.ramps ∧ (s.settleOffer b).accounting = s.accounting ∧
    (s.settleOffer b).rules = s.rules ∧ (s.settleOffer b).flags = s.flags ∧
    (s.settleOffer b).transmit = { s.transmit with boxes := b, offer := none } ∧ (s.settleOffer b).link = s.link ∧
    (s.settleOffer b).receive = s.receive ∧ (s.settleOffer b).stretch = s.stretch := by
  refine ⟨?_, ?_, ?_, ?_, ?_, ?_, ?_, ?_, ?_, ?_, ?_, ?_, ?_, ?_, ?_, ?_, ?_, ?_, ?_, ?_, ?_, ?_, ?_, ?_, ?_⟩ <;> rfl

@[simp] theorem setAbandoned_fields (s : State) (l : List Frame) :
    (s.setAbandoned l).pending = s.pending ∧ (s.setAbandoned l).pins = s.pins ∧
    (s.setAbandoned l).startup = s.startup ∧ (s.setAbandoned l).cfg = s.cfg ∧
    (s.setAbandoned l).sequencer = s.sequencer ∧ (s.setAbandoned l).inputs = s.inputs ∧
    (s.setAbandoned l).source = s.source ∧ (s.setAbandoned l).tracker = s.tracker ∧
    (s.setAbandoned l).peers = s.peers ∧ (s.setAbandoned l).detector = s.detector ∧
    (s.setAbandoned l).timeline = s.timeline ∧ (s.setAbandoned l).demands = s.demands ∧
    (s.setAbandoned l).safe = s.safe ∧ (s.setAbandoned l).regime = s.regime ∧
    (s.setAbandoned l).emitters = s.emitters ∧ (s.setAbandoned l).scrub = s.scrub ∧ (s.setAbandoned l).mix = s.mix ∧
    (s.setAbandoned l).ramps = s.ramps ∧ (s.setAbandoned l).accounting = s.accounting ∧
    (s.setAbandoned l).rules = s.rules ∧ (s.setAbandoned l).flags = s.flags ∧
    (s.setAbandoned l).transmit = { s.transmit with abandoned := l } ∧ (s.setAbandoned l).link = s.link ∧
    (s.setAbandoned l).receive = s.receive ∧ (s.setAbandoned l).stretch = s.stretch := by
  refine ⟨?_, ?_, ?_, ?_, ?_, ?_, ?_, ?_, ?_, ?_, ?_, ?_, ?_, ?_, ?_, ?_, ?_, ?_, ?_, ?_, ?_, ?_, ?_, ?_, ?_⟩ <;> rfl

@[simp] theorem setStretch_fields (s : State) (x : Stretch) :
    (s.setStretch x).pending = s.pending ∧ (s.setStretch x).pins = s.pins ∧ (s.setStretch x).startup = s.startup ∧
    (s.setStretch x).cfg = s.cfg ∧ (s.setStretch x).sequencer = s.sequencer ∧ (s.setStretch x).inputs = s.inputs ∧
    (s.setStretch x).source = s.source ∧ (s.setStretch x).tracker = s.tracker ∧ (s.setStretch x).peers = s.peers ∧
    (s.setStretch x).detector = s.detector ∧ (s.setStretch x).timeline = s.timeline ∧
    (s.setStretch x).demands = s.demands ∧ (s.setStretch x).safe = s.safe ∧ (s.setStretch x).regime = s.regime ∧
    (s.setStretch x).emitters = s.emitters ∧ (s.setStretch x).scrub = s.scrub ∧ (s.setStretch x).mix = s.mix ∧
    (s.setStretch x).ramps = s.ramps ∧ (s.setStretch x).accounting = s.accounting ∧ (s.setStretch x).rules = s.rules ∧
    (s.setStretch x).flags = s.flags ∧ (s.setStretch x).transmit = s.transmit ∧ (s.setStretch x).link = s.link ∧
    (s.setStretch x).receive = s.receive ∧ (s.setStretch x).stretch = x := by
  refine ⟨?_, ?_, ?_, ?_, ?_, ?_, ?_, ?_, ?_, ?_, ?_, ?_, ?_, ?_, ?_, ?_, ?_, ?_, ?_, ?_, ?_, ?_, ?_, ?_, ?_⟩ <;> rfl

@[simp] theorem setGuard_fields (s : State) (g : Option Guard) :
    (s.setGuard g).pending = s.pending ∧ (s.setGuard g).pins = s.pins ∧ (s.setGuard g).startup = s.startup ∧
    (s.setGuard g).cfg = s.cfg ∧ (s.setGuard g).sequencer = s.sequencer ∧ (s.setGuard g).inputs = s.inputs ∧
    (s.setGuard g).source = s.source ∧ (s.setGuard g).tracker = s.tracker ∧ (s.setGuard g).peers = s.peers ∧
    (s.setGuard g).detector = s.detector ∧ (s.setGuard g).timeline = s.timeline ∧ (s.setGuard g).demands = s.demands ∧
    (s.setGuard g).safe = s.safe ∧ (s.setGuard g).regime = s.regime ∧ (s.setGuard g).emitters = s.emitters ∧
    (s.setGuard g).scrub = s.scrub ∧ (s.setGuard g).mix = s.mix ∧ (s.setGuard g).ramps = s.ramps ∧
    (s.setGuard g).accounting = s.accounting ∧ (s.setGuard g).rules = s.rules ∧ (s.setGuard g).flags = s.flags ∧
    (s.setGuard g).transmit = s.transmit ∧ (s.setGuard g).link = s.link ∧
    (s.setGuard g).receive = { s.receive with guard := g } ∧ (s.setGuard g).stretch = s.stretch := by
  refine ⟨?_, ?_, ?_, ?_, ?_, ?_, ?_, ?_, ?_, ?_, ?_, ?_, ?_, ?_, ?_, ?_, ?_, ?_, ?_, ?_, ?_, ?_, ?_, ?_, ?_⟩ <;> rfl

@[simp] theorem setQueue_fields (s : State) (q : List Frame) :
    (s.setQueue q).pending = s.pending ∧ (s.setQueue q).pins = s.pins ∧ (s.setQueue q).startup = s.startup ∧
    (s.setQueue q).cfg = s.cfg ∧ (s.setQueue q).sequencer = s.sequencer ∧ (s.setQueue q).inputs = s.inputs ∧
    (s.setQueue q).source = s.source ∧ (s.setQueue q).tracker = s.tracker ∧ (s.setQueue q).peers = s.peers ∧
    (s.setQueue q).detector = s.detector ∧ (s.setQueue q).timeline = s.timeline ∧ (s.setQueue q).demands = s.demands ∧
    (s.setQueue q).safe = s.safe ∧ (s.setQueue q).regime = s.regime ∧ (s.setQueue q).emitters = s.emitters ∧
    (s.setQueue q).scrub = s.scrub ∧ (s.setQueue q).mix = s.mix ∧ (s.setQueue q).ramps = s.ramps ∧
    (s.setQueue q).accounting = s.accounting ∧ (s.setQueue q).rules = s.rules ∧ (s.setQueue q).flags = s.flags ∧
    (s.setQueue q).transmit = s.transmit ∧ (s.setQueue q).link = s.link ∧
    (s.setQueue q).receive = { s.receive with queue := q } ∧ (s.setQueue q).stretch = s.stretch := by
  refine ⟨?_, ?_, ?_, ?_, ?_, ?_, ?_, ?_, ?_, ?_, ?_, ?_, ?_, ?_, ?_, ?_, ?_, ?_, ?_, ?_, ?_, ?_, ?_, ?_, ?_⟩ <;> rfl

end Sys2Proof.Machine.State
end

