-- ==== Sys2Proof/Laws/Handing.lean ====
section
/-! SUPPORT. What the hand-ons of targets and of the regime bring about: a target at its channel, the safe position, the
selection of the regime. -/

namespace Sys2Proof.Machine

open Sys2Proof

theorem Channel.take_target (cfg : RampCfg) (c : Channel) (x : Nat) : (c.take cfg x).target = x := by
  unfold Channel.take
  split
  · rfl
  all_goals split
            · rfl
            · split <;> rfl

namespace State

/-! ## Targets -/

theorem bump_ramps (s : State) (c : Counter) (n : Nat) : (s.bump c n).ramps = s.ramps := by
  unfold bump
  dsimp only
  split <;> rfl

theorem damperChanged_channels (s : State) (c d : Channel) :
    (s.damperChanged c d).ramps.damper = s.ramps.damper ∧ (s.damperChanged c d).ramps.blower = s.ramps.blower := by
  unfold damperChanged
  dsimp only
  generalize ht : (if c.output = d.output then s else s.bump .damperTravel (distance c.output d.output)) = t
  have h : t.ramps = s.ramps := by
    rw [← ht]
    split
    · rfl
    · exact bump_ramps _ _ _
  rw [← h]
  split
  · split <;> exact ⟨rfl, rfl⟩
  · split
    · exact ⟨rfl, rfl⟩
    · split <;> exact ⟨rfl, rfl⟩

theorem putChannel_damper (s : State) (d : Channel) :
    (s.putChannel .damper d).ramps.damper = d ∧ (s.putChannel .damper d).ramps.blower = s.ramps.blower :=
  damperChanged_channels { s with ramps := { s.ramps with damper := d } } s.ramps.damper d

/-- The configuration, the role and the station state stay through a change of the ramps. -/
theorem same_frame {ps : List Part} {s t : State} (h : Only ps s t) (hc : Part.cfg ∉ ps := by decide)
    (hr : Part.role ∉ ps := by decide) (hs : Part.station ∉ ps := by decide) :
    t.cfg = s.cfg ∧ t.startup.role = s.startup.role ∧ t.startup.station = s.startup.station :=
  ⟨h .cfg hc, h .role hr, h .station hs⟩

theorem takeTarget_damper (s : State) (x : Nat) (h : s.startup.role = .inlet) :
    (s.takeTarget .damper x).ramps.damper = s.ramps.damper.take s.cfg.damper x ∧
      (s.takeTarget .damper x).ramps.blower = s.ramps.blower := by
  unfold takeTarget
  rw [if_pos h]
  exact putChannel_damper s _

theorem takeTarget_blower (s : State) (x : Nat) (h : s.startup.role = .inlet) :
    s.takeTarget .blower x = { s with ramps := { s.ramps with blower := s.ramps.blower.take s.cfg.blower x } } := by
  unfold takeTarget
  rw [if_pos h]
  rfl

theorem takeTargets_targets (s : State) (x y : Nat) (h : s.startup.role = .inlet) :
    (s.takeTargets x y).ramps.damper = s.ramps.damper.take s.cfg.damper x ∧
      (s.takeTargets x y).ramps.blower = s.ramps.blower.take s.cfg.blower y := by
  unfold takeTargets
  have k := same_frame (takeTarget_only s .damper x)
  rw [takeTarget_blower _ _ (k.2.1.trans h), k.1, (takeTarget_damper s x h).2]
  exact ⟨(takeTarget_damper s x h).1, rfl⟩

theorem applySafePosition_targets (s : State) (h : s.startup.role = .inlet) :
    s.applySafePosition.ramps.damper.target = s.cfg.mix.safeDamper ∧
      s.applySafePosition.ramps.blower.target = s.cfg.mix.safeBlower := by
  unfold applySafePosition
  rw [if_neg (not_not_intro h)]
  split
  · exact ⟨congrArg Channel.target (putChannel_damper s _).1, rfl⟩
  · have k := takeTargets_targets s s.cfg.mix.safeDamper s.cfg.mix.safeBlower h
    exact ⟨(congrArg Channel.target k.1).trans (Channel.take_target _ _ _),
      (congrArg Channel.target k.2).trans (Channel.take_target _ _ _)⟩

/-- Of a computation derived afresh both targets, or the blower's alone, stand at the channels (R123). -/
theorem computeMix_afresh (s : State) (hr : s.startup.role = .inlet) (hs : s.startup.station = .running) :
    (s.regime = .auto →
      (s.computeMix true).mix.damper = some (s.computeMix true).ramps.damper.target ∧
      (s.computeMix true).mix.blower = some (s.computeMix true).ramps.blower.target) ∧
    (s.regime = .recirc → (s.computeMix true).ramps.damper = s.ramps.damper ∧
      (s.computeMix true).mix.blower = some (s.computeMix true).ramps.blower.target) := by
  constructor
  · intro h
    have e : s.computeMix true = ({ s with mix := s.fullComputation } : State).takeTargets
        (damperCode s.cfg.mix.table (1000 - s.fullComputation.fresh)) (blowerCode s.cfg s.burdenUsed) := by
      unfold computeMix
      rw [if_pos ⟨hr, hs⟩]
      split
      · rfl
      all_goals rename_i k; rw [h] at k; cases k
    have k := takeTargets_targets { s with mix := s.fullComputation }
      (damperCode s.cfg.mix.table (1000 - s.fullComputation.fresh)) (blowerCode s.cfg s.burdenUsed) hr
    have m := takeTargets_only { s with mix := s.fullComputation }
      (damperCode s.cfg.mix.table (1000 - s.fullComputation.fresh)) (blowerCode s.cfg s.burdenUsed) .mix (by decide)
    rw [e, k.1, k.2, m, Channel.take_target, Channel.take_target]
    exact ⟨rfl, rfl⟩
  · intro h
    have e : s.computeMix true =
        ({ s with mix := s.blowerComputation } : State).takeTarget .blower (blowerCode s.cfg s.burdenUsed) := by
      unfold computeMix
      rw [if_pos ⟨hr, hs⟩]
      split
      · rename_i k; rw [h] at k; cases k
      · rfl
      all_goals rename_i k; rw [h] at k; cases k
    have k := takeTarget_blower ({ s with mix := s.blowerComputation } : State) (blowerCode s.cfg s.burdenUsed) hr
    rw [e, k]
    exact ⟨rfl, congrArg some (Channel.take_target _ _ _).symm⟩

theorem handTargets_handed (s : State) (hr : s.startup.role = .inlet) : TargetsHanded s.handTargets := by
  have ho := handTargets_only s
  have hreg : s.handTargets.regime = s.regime := ho .regime (by decide)
  have f := same_frame ho
  have tt (x y : Nat) : (s.takeTargets x y).ramps.damper.target = x ∧ (s.takeTargets x y).ramps.blower.target = y := by
    have k := takeTargets_targets s x y hr
    exact ⟨(congrArg Channel.target k.1).trans (Channel.take_target _ _ _),
      (congrArg Channel.target k.2).trans (Channel.take_target _ _ _)⟩
  constructor
  all_goals rw [hreg]
  all_goals intro h
  · rw [f.1]; unfold handTargets; rw [h]; exact tt _ _
  · rw [f.1]; unfold handTargets; rw [h]; exact tt _ _
  · rw [f.1]; unfold handTargets; rw [h]; exact tt _ _
  · have e : s.handTargets = s.takeTargets s.ramps.damper.output 0 := by unfold handTargets; rw [h]
    rw [e]
    refine ⟨(tt _ _).1.trans ?_, (tt _ _).2⟩
    rw [(takeTargets_targets s s.ramps.damper.output 0 hr).1]
    unfold Channel.take
    split
    · rfl
    all_goals rw [if_pos rfl]; rfl
  · have e : s.handTargets = (s.takeTarget .damper (recircCode s.cfg)).computeMix true := by unfold handTargets; rw [h]
    rw [f.1, f.2.2]
    have g := same_frame (takeTarget_only s .damper (recircCode s.cfg))
    have k := takeTarget_damper s (recircCode s.cfg) hr
    have r : (s.takeTarget .damper (recircCode s.cfg)).regime = .recirc :=
      (takeTarget_only s .damper (recircCode s.cfg) .regime (by decide)).trans h
    by_cases hs : s.startup.station = .running
    · have c := (computeMix_afresh _ (g.2.1.trans hr) (g.2.2.trans hs)).2 r
      rw [e, c.1, k.1]
      exact ⟨Channel.take_target _ _ _, fun _ => c.2⟩
    · have c : (s.takeTarget .damper (recircCode s.cfg)).computeMix true = s.takeTarget .damper (recircCode s.cfg) := by
        unfold computeMix
        rw [if_neg (fun x => hs (g.2.2.symm.trans x.2))]
      rw [e, c, k.1]
      exact ⟨Channel.take_target _ _ _, fun x => absurd x hs⟩
  · intro hs
    have e : s.handTargets = s.computeMix true := by unfold handTargets; rw [h]
    rw [f.2.2] at hs
    rw [e]
    exact (computeMix_afresh s hr hs).1 h

/-! ## The active regime -/

theorem listWorks_iff (s : State) : s.listWorks = true ↔ s.startup.role = .inlet ∧ s.startup.station ≠ .loading := by
  unfold listWorks
  simp

theorem selectRegime_selected {s t : State} (h : t.regime = s.selectRegime) (hf : t.safe = s.safe)
    (hs : t.startup.station = s.startup.station) (ht : t.tracker = s.tracker) (hd : t.demands = s.demands) :
    RegimeSelected t := by
  unfold RegimeSelected
  rw [h, hf, hs, ht, hd]
  unfold selectRegime
  by_cases a : s.safe.nonempty = true ∨ s.startup.station = .joining
  · simp [a]
  · have b := not_or.mp a
    rw [if_neg a, if_neg (by simp [b.1, b.2])]
    by_cases c : s.tracker.ignition = false
    · rw [if_pos c, if_pos (by simp [c])]
    · refine ((if_neg (by simp [c])).trans ?_).trans (if_neg c).symm
      cases s.demands.entries <;> rfl

/-- The regime selected again: R103's, and a different one's targets handed on (R104). -/
theorem reselect_selected (s : State) (h : s.listWorks = true) :
    RegimeSelected s.reselect ∧ (s.reselect.regime ≠ s.regime → TargetsHanded s.reselect) := by
  have ho := reselect_only s
  have hr := (s.listWorks_iff.mp h).1
  have hreg : s.reselect.regime = s.selectRegime := by
    unfold reselect
    dsimp only
    split
    · next c => rcases c with c | c
                · rw [h] at c; cases c
                · exact c.symm
    · split
      · exact applySafePosition_only _ .regime (by decide)
      · exact handTargets_only _ .regime (by decide)
  refine ⟨selectRegime_selected hreg (ho .safeSet (by decide)) (ho .station (by decide)) (ho .tracker (by decide))
    (ho .demands (by decide)), fun hne => ?_⟩
  have e : s.reselect = if s.selectRegime = .safe then ({ s with regime := s.selectRegime }).applySafePosition
      else ({ s with regime := s.selectRegime }).handTargets := by
    unfold reselect
    dsimp only
    rw [if_neg]
    rintro (c | c)
    · rw [h] at c; cases c
    · exact hne (hreg.trans c)
  rw [e]
  split
  · next c =>
    have k := applySafePosition_targets { s with regime := s.selectRegime } hr
    have f := same_frame (applySafePosition_only { s with regime := s.selectRegime })
    have r : ({ s with regime := s.selectRegime } : State).applySafePosition.regime = .safe :=
      (applySafePosition_only { s with regime := s.selectRegime } .regime (by decide)).trans c
    exact ⟨fun _ => by rw [f.1]; exact k, by rw [r]; nofun, by rw [r]; nofun, by rw [r]; nofun, by rw [r]; nofun,
      by rw [r]; nofun⟩
  · exact handTargets_handed _ hr

/-- The regime selected again with its targets derived afresh (R102, R104). -/
theorem rederive_selected (s : State) (h : s.listWorks = true) : RegimeSelected s.rederive ∧ TargetsHanded s.rederive
  := by
  have ho := rederive_only s
  have e : s.rederive = ({ s with regime := s.selectRegime }).handTargets := by
    unfold rederive
    rw [if_neg (by rw [h]; decide)]
  have hreg : s.rederive.regime = s.selectRegime := by
    rw [e]
    exact handTargets_only _ .regime (by decide)
  refine ⟨selectRegime_selected hreg (ho .safeSet (by decide)) (ho .station (by decide)) (ho .tracker (by decide))
    (ho .demands (by decide)), ?_⟩
  rw [e]
  exact handTargets_handed _ (s.listWorks_iff.mp h).1

end State
end Sys2Proof.Machine
end

