-- ==== Sys2Proof/Laws/Conditions.lean ====
section
/-! SUPPORT. What the change of a condition with a demand source, of the force request and of the rule safe condition
brings about: local entry or emitter, safe-source set or safe emitter. -/

namespace Sys2Proof.Machine

open Sys2Proof

namespace State

/-! ## Mailboxes -/

theorem bump_transmit (s : State) (c : Counter) (n : Nat) : (s.bump c n).transmit = s.transmit := by
  unfold bump
  dsimp only
  split <;> rfl

theorem hold_boxes (s : State) (b : Box) (h : Held) : (s.hold b h).transmit.boxes = s.transmit.boxes.put b h := by
  unfold hold
  dsimp only
  split
  · rw [count, bump_transmit]
  · rfl

theorem frames_hold (s : State) (b : Box) (h : Held) :
    (s.hold b h).frames b = ((s.transmit.boxes.put b h).held b).map (·.frame) := by
  unfold frames
  rw [hold_boxes]

/-- A mailbox that is the same holds the same frames. -/
theorem frames_same {s t : State} {b : Box} (h : (Note.box b).same s t) : t.frames b = s.frames b := by
  have k : t.transmit.boxes.keepOffered.held b = s.transmit.boxes.keepOffered.held b := h
  rw [Boxes.held_map, Boxes.held_map] at k
  have m := congrArg (List.map (·.frame)) k
  simp only [List.map_map] at m
  exact m

/-- A single mailbox holds the content just queued, outside CONFLICT. -/
theorem frames_post (s : State) (b : Box) (f : Frame) (h : s.startup.station ≠ .conflict)
    (hb : b ≠ .sight) (ha : b ≠ .answer) : (s.post b f).frames b = [f] := by
  unfold post
  rw [if_neg (fun x => h x.1), frames_hold]
  cases b <;> first | contradiction | simp [Boxes.put, Boxes.held, freshHeld]

theorem ramps_ext {s t : State} (a : Part.damper.same s t) (b : Part.blower.same s t) (c : Part.settle.same s t) :
    t.ramps = s.ramps := by
  have a' : t.ramps.damper = s.ramps.damper := a
  have b' : t.ramps.blower = s.ramps.blower := b
  have c' : t.ramps.settle = s.ramps.settle ∧ t.ramps.settled = s.ramps.settled := c
  revert a' b' c'
  generalize s.ramps = x
  generalize t.ramps = y
  cases x; cases y
  intro a b c
  simp_all

/-- Kind, index and sender of a frame this station forms. -/
theorem ownFrame_head (s : State) (k i : Nat) (d : List Byte) (hk : k < 16) (hi : i < 16) :
    (ownFrame s k i d).kind = k ∧ (ownFrame s k i d).index.val = i ∧ (ownFrame s k i d).station = s.startup.own := by
  have hs := s.startup.own.isLt
  have e : (ownFrame s k i d).id.toNat = (k * 128 + i * 8 + s.startup.own.val) % 2048 := BitVec.toNat_ofNat _ _
  refine ⟨?_, ?_, Fin.ext ?_⟩
  · show (ownFrame s k i d).id.toNat / 128 = k; omega
  · show (ownFrame s k i d).id.toNat / 8 % 16 = i; omega
  · show (ownFrame s k i d).id.toNat % 8 = _; omega

/-! ## Conditions (R99, R105) -/

/-- A condition that begins makes its emitter HELD. -/
theorem emitterBegins_begun (s : State) (source : Fin 16) (r : DemandRegime) (level : Nat)
    (he : emitterDemand s.cfg source = some (r, level)) (hw : s.emittersWork = true)
    (hh : s.emitters.demand[source].held = false) : EmitterBegun source r level (s.emitterBegins source) := by
  have e : s.emitterBegins source = (s.setEmitter source (emitterHeld (repeatTime s.cfg))).post (.demand source)
      (demandFrame s source r level s.cfg.demandHoldS) := by
    unfold emitterBegins
    rw [he]
    exact if_pos ⟨hw, hh⟩
  have hst : s.startup.station ≠ .conflict := by
    unfold emittersWork at hw
    intro k
    simp [k] at hw
  have ho := post_only (s.setEmitter source (emitterHeld (repeatTime s.cfg))) (.demand source)
      (demandFrame s source r level s.cfg.demandHoldS)
  have hem := ho .emitters (by decide)
  have c := ho .cfg (by decide)
  have hown := (ho .straps (by decide)).1
  have f := ownFrame_head s 5 source.val (byte1 (demandRegimeCode r) ++ byte1 level ++ byte1 s.cfg.demandHoldS)
    (by decide) source.isLt
  rw [e]
  constructor
  · rw [show (State.emitters _ = _) from hem, show (State.cfg _ = _) from c]
    exact (set_get s.emitters.demand source source _).trans (if_pos rfl)
  · refine ⟨_, frames_post _ _ _ (by exact hst) (by simp) (by simp), f.1, Fin.ext f.2.1, f.2.2.trans ?_, rfl, ?_, ?_,
      ?_⟩
    · exact hown.symm
    · show (BitVec.ofNat 8 _).toNat = _
      cases r <;> rfl
    · show (BitVec.ofNat 8 _).toNat = _
      simp
    · rw [show (State.cfg _ = _) from c]
      show (BitVec.ofNat 8 _).toNat = _
      simp

/-- A condition that ends makes a HELD emitter OFF. -/
theorem emitterEnds_ended (s : State) (source : Fin 16) (hh : s.emitters.demand[source].held = true) :
    EmitterEnded source (s.emitterEnds source) := by
  have e : s.emitterEnds source = (s.setEmitter source emitterOff).post (.demand source) (withdrawFrame s source) := by
    unfold emitterEnds
    exact if_pos hh
  have ho := post_only (s.setEmitter source emitterOff) (.demand source) (withdrawFrame s source)
  have f := ownFrame_head s 5 source.val [Config.withdrawRegime source.val, 0#8, Config.withdrawHold source.val]
    (by decide) source.isLt
  rw [e]
  constructor
  · rw [show (State.emitters _ = _) from ho .emitters (by decide)]
    exact (set_get s.emitters.demand source source _).trans (if_pos rfl)
  · intro hst
    rw [show (Startup.station _ = _) from ho .station (by decide)] at hst
    exact ⟨_, frames_post _ _ _ hst (by simp) (by simp), f.1, Fin.ext f.2.1,
      f.2.2.trans (ho .straps (by decide)).1.symm, rfl, rfl⟩

/-- The message entry that goes first, by R96 and R99, is the one found. -/
theorem evictionCandidate_unique {l : List DemandEntry} {v : DemandEntry} (hv : v ∈ l) (hm : v.hold.isSome = true)
    (hw : ∀ w ∈ l, w.hold.isSome = true → w = v ∨ v.level < w.level ∨ (v.level = w.level ∧ w.stamp < v.stamp)) :
    evictionCandidate l = some v := by
  induction l with
  | nil => cases hv
  | cons x xs ih =>
    unfold evictionCandidate
    cases hc : evictionCandidate xs with
    | none =>
      dsimp only
      by_cases hxv : x = v
      · subst hxv; rw [if_pos (by exact hm)]
      · have hvx : v ∈ xs := by
          cases hv with
          | head => exact absurd rfl hxv
          | tail _ h => exact h
        have := ih hvx (fun w h => hw w (List.mem_cons_of_mem _ h))
        rw [this] at hc; cases hc
    | some y =>
      dsimp only
      by_cases hvx : v ∈ xs
      · have := ih hvx (fun w h => hw w (List.mem_cons_of_mem _ h))
        rw [this] at hc; cases hc
        split
        · next k =>
          have k2 := (Bool.and_eq_true _ _).mp k
          have := of_decide_eq_true k2.2
          rcases hw x (List.mem_cons_self) k2.1 with h | h | h
          · rw [h]
          · omega
          · omega
        · rfl
      · have hxv : x = v := by
          cases hv with
          | head => rfl
          | tail _ h => exact absurd h hvx
        subst hxv
        have hy : y ∈ xs ∧ y.hold.isSome = true := by
          have aux : ∀ (l : List DemandEntry) (y), evictionCandidate l = some y → y ∈ l ∧ y.hold.isSome = true := by
            intro l
            induction l with
            | nil => intro y h; cases h
            | cons a as ih2 =>
              intro y h
              unfold evictionCandidate at h
              split at h
              · split at h
                · next q => cases h; exact ⟨List.mem_cons_self, q⟩
                · cases h
              · next z hz =>
                have iz := ih2 z hz
                split at h
                · next q => cases h; exact ⟨List.mem_cons_self, ((Bool.and_eq_true _ _).mp q).1⟩
                · cases h; exact ⟨List.mem_cons_of_mem _ iz.1, iz.2⟩
          exact aux xs y hc
        rcases hw y (List.mem_cons_of_mem _ hy.1) hy.2 with h | h
        · rw [h] at hy; exact absurd hy.1 hvx
        · rw [if_pos]
          rw [Bool.and_eq_true]
          refine ⟨hm, decide_eq_true ?_⟩
          exact h

/-- What the insertion of a local entry does (R99). -/
theorem insertLocal_raised (s : State) (source : Fin 16) (r : DemandRegime) (level : Nat) (hw : s.listWorks = true) :
    LocalRaised source r level s (s.insertLocal source r level) := by
  have hn : ¬ s.listWorks = false := by rw [hw]; decide
  have hol : s.demands.holds s.startup.own source = true ↔
      ∃ e ∈ s.demands.entries, e.station = s.startup.own ∧ e.source = source := by
    unfold DemandList.holds DemandEntry.hasKey
    simp
  constructor
  · intro h
    unfold insertLocal; dsimp only
    rw [if_pos (Or.inr (hol.mpr h))]
  · intro h hl
    have hh : ¬ s.demands.holds s.startup.own source = true := fun k => by
      obtain ⟨e, he, k⟩ := hol.mp k; exact h e he k
    have e : s.insertLocal source r level = s.insertRaised (localEntry s source r level) := by
      unfold insertLocal; dsimp only
      rw [if_neg (fun x => x.elim hn hh), if_pos (show _ < listCapacity from hl)]
    rw [e]
    refine ⟨?_, ?_, ?_⟩
    · unfold insertRaised count; exact bump_only _ _ _ .demands (by decide)
    · unfold insertRaised; exact (cell_count _ _ _).trans (if_pos rfl)
    · unfold insertRaised; exact (cell_count _ _ _).trans (if_neg (by decide))
  · intro h hl v hv hm hu
    have hh : ¬ s.demands.holds s.startup.own source = true := fun k => by
      obtain ⟨e, he, k⟩ := hol.mp k; exact h e he k
    have hc := evictionCandidate_unique hv hm hu
    have e : s.insertLocal source r level = s.insertFor v (localEntry s source r level) := by
      unfold insertLocal; dsimp only
      rw [if_neg (fun x => x.elim hn hh), if_neg (by unfold listCapacity; omega), hc]
    rw [e]
    unfold insertFor
    refine ⟨?_, ?_, ?_⟩
    · have a := count_only ({ s with demands := (s.demands.remove v.station v.source).insert (localEntry s source r
        level) } : State) .demandEvicted .demands (by decide)
      have b := count_only (({ s with demands := (s.demands.remove v.station v.source).insert (localEntry s source r
        level) } : State).count .demandEvicted) .raised .demands (by decide)
      rw [show (State.demands _ = _) from b, show (State.demands _ = _) from a]
      show DemandList.insert _ _ = DemandList.insert _ _
      congr 1
      unfold DemandList.remove DemandEntry.hasKey
      congr 1
      apply List.filter_congr; intro x _; simp
    · rw [cell_count, if_pos rfl, cell_count, if_neg (by decide)]; rfl
    · rw [cell_count, if_neg (by decide), cell_count, if_pos rfl]; rfl

theorem localRaised_of_eq {source r level} {s t u : State} (h : LocalRaised source r level s t)
    (hd : u.demands = t.demands) (h1 : u.cell .raised = t.cell .raised)
    (h2 : u.cell .demandEvicted = t.cell .demandEvicted) : LocalRaised source r level s u :=
  ⟨fun a => hd.trans (h.again a), fun a b => by rw [hd, h1, h2]; exact h.room a b,
   fun a b v c d e => by rw [hd, h1, h2]; exact h.full a b v c d e⟩

/-- Everything a change of a condition hands on (R99, R103 to R105). -/
theorem conditionChanged_handed (s : State) (source : Fin 16) (r : DemandRegime) (level : Nat) (holds : Bool)
    (he : s.startup.role ≠ .inlet → emitterDemand s.cfg source = some (r, level)) :
    ConditionHanded source r level holds s (s.conditionChanged source r level holds) := by
  by_cases hr : s.startup.role = .inlet
  · have ec : s.conditionChanged source r level holds = s.setLocal source r level holds := if_pos hr
    rw [ec]
    have ho := setLocal_only s source r level holds
    have hnb : (Note.box (.demand source)).same s (s.setLocal source r level holds) := by
      have := setLocal_notes s source r level holds
      exact this _ (by simp)
    refine ⟨?_, ?_, ?_, ?_, ?_, ?_, ?_, ?_, ?_⟩
    · intro _ hst hh
      have hw : s.listWorks = true := s.listWorks_iff.mpr ⟨hr, hst⟩
      subst hh
      show LocalRaised _ _ _ _ (s.raiseLocal _ _ _)
      unfold raiseLocal
      have k := reselect_only (s.insertLocal source r level)
      have n := reselect_notes (s.insertLocal source r level)
      exact localRaised_of_eq (insertLocal_raised s source r level hw) (k .demands (by decide))
        (n (.counter .raised) (by simp)) (n (.counter .demandEvicted) (by simp))
    · intro _ hst hh
      have hw : s.listWorks = true := s.listWorks_iff.mpr ⟨hr, hst⟩
      subst hh
      have e : s.setLocal source r level false = ({ s with demands := s.demands.remove s.startup.own source } :
        State).reselect := by
        show s.withdrawLocal source = _
        unfold withdrawLocal; rw [if_neg (by rw [hw]; decide)]
      rw [e]
      have k := reselect_only ({ s with demands := s.demands.remove s.startup.own source } : State)
      have n := reselect_notes ({ s with demands := s.demands.remove s.startup.own source } : State)
      refine ⟨?_, n (.counter .raised) (by simp), n (.counter .demandEvicted) (by simp)⟩
      rw [show State.demands _ = _ from k .demands (by decide)]
      show DemandList.remove _ _ _ = _
      unfold DemandList.remove DemandEntry.hasKey
      congr 1
      apply List.filter_congr; intro x _; simp
    · intro _ hst
      have hw : s.listWorks = true := s.listWorks_iff.mpr ⟨hr, hst⟩
      cases holds with
      | true =>
        show RegimeSelected (s.insertLocal source r level).reselect ∧
          ((s.insertLocal source r level).reselect.regime ≠ _ → _)
        have k := insertLocal_only s source r level
        have e1 : (s.insertLocal source r level).regime = s.regime := k .regime (by decide)
        have w : (s.insertLocal source r level).listWorks = true := by
          rw [listWorks_iff]
          rw [show Startup.role _ = _ from k .role (by decide), show Startup.station _ = _ from k .station (by decide)]
          exact ⟨hr, hst⟩
        have := reselect_selected _ w
        rw [e1] at this
        exact this
      | false =>
        have e : s.setLocal source r level false = ({ s with demands := s.demands.remove s.startup.own source } :
          State).reselect := by
          show s.withdrawLocal source = _
          unfold withdrawLocal; rw [if_neg (by rw [hw]; decide)]
        rw [e]
        exact reselect_selected ({ s with demands := s.demands.remove s.startup.own source } : State) hw
    · intro _
      exact ⟨ho .emitters (by decide), frames_same hnb⟩
    · intro k; exact absurd hr k
    · intro k; exact absurd hr k
    · intro k; exact absurd hr k
    · have := ho .emitters (by decide)
      have e2 : (s.setLocal source r level holds).emitters = s.emitters := this
      rw [e2]; exact ⟨fun _ _ => rfl, rfl⟩
    · intro k; exact absurd hr k
  · have ed := he hr
    have ec : s.conditionChanged source r level holds = if holds then s.emitterBegins source else s.emitterEnds source
      := if_neg hr
    rw [ec]
    have wk : s.emittersWork = true ↔ s.startup.station = .running := by unfold emittersWork; simp [hr]
    have hb : s.startup.station ≠ .running ∨ s.emitters.demand[source].held = true → s.emitterBegins source = s := by
      intro h
      unfold emitterBegins; rw [ed]
      exact if_neg (fun x => h.elim (fun a => a (wk.mp x.1)) (fun a => by rw [a] at x; cases x.2))
    have hen : s.emitters.demand[source].held = false → s.emitterEnds source = s := by
      intro h
      unfold emitterEnds; rw [if_neg (by rw [h]; decide)]
    have em (e : Emitter) (f : Frame) : (∀ m : Fin 16, m ≠ source →
        ((s.setEmitter source e).post (.demand source) f).emitters.demand[m] = s.emitters.demand[m]) ∧
        ((s.setEmitter source e).post (.demand source) f).emitters.safe = s.emitters.safe := by
      have k := post_only (s.setEmitter source e) (.demand source) f .emitters (by decide)
      rw [show State.emitters _ = _ from k]
      exact ⟨fun m hm => (set_get s.emitters.demand source m e).trans (if_neg (Ne.symm hm)), rfl⟩
    refine ⟨fun k => absurd k hr, fun k => absurd k hr, fun k => absurd k hr, fun k => absurd k hr, ?_, ?_, ?_, ?_, ?_⟩
    · intro _ hh hst hz
      rw [if_pos hh]; exact emitterBegins_begun s source r level ed (wk.mpr hst) hz
    · intro _ hh hz
      rw [hh]; exact emitterEnds_ended s source hz
    · intro _ h
      rcases h with ⟨h1, h2⟩ | ⟨h1, h2⟩
      · rw [if_pos h1, hb h2]; exact ⟨rfl, rfl⟩
      · rw [h1]; show (s.emitterEnds source).emitters = _ ∧ _; rw [hen h2]; exact ⟨rfl, rfl⟩
    · cases holds with
      | true =>
        show (∀ m, _) ∧ (s.emitterBegins source).emitters.safe = _
        by_cases q : s.emittersWork = true ∧ s.emitters.demand[source].held = false
        · have e : s.emitterBegins source = (s.setEmitter source (emitterHeld (repeatTime s.cfg))).post (.demand source)
            (demandFrame s source r level s.cfg.demandHoldS) := by
            unfold emitterBegins
            rw [ed]
            exact if_pos q
          show (∀ m, m ≠ source → (s.emitterBegins source).emitters.demand[m] = _) ∧ _
          rw [e]; exact em _ _
        · have e : s.emitterBegins source = s := by unfold emitterBegins; rw [ed]; exact if_neg q
          show (∀ m, m ≠ source → (s.emitterBegins source).emitters.demand[m] = _) ∧ _
          rw [e]; exact ⟨fun _ _ => rfl, rfl⟩
      | false =>
        show (∀ m, m ≠ source → (s.emitterEnds source).emitters.demand[m] = _) ∧
          (s.emitterEnds source).emitters.safe = _
        unfold emitterEnds
        split
        · exact em _ _
        · exact ⟨fun _ _ => rfl, rfl⟩
    · intro _
      have k : Only emitterParts s (if holds = true then s.emitterBegins source else s.emitterEnds source) :=
        Only.ite (emitterBegins_only _ _) (emitterEnds_only _ _)
      refine ⟨k .demands (by decide), k .regime (by decide), ?_⟩
      have a := k .damper (by decide)
      have b := k .blower (by decide)
      have c := k .settle (by decide)
      exact ramps_ext a b c

/-! ## The safe logic (R101, R102, R106) -/

/-- Everything a new value of the safe-source set hands on. -/
theorem setSafe_does (s : State) (q : SafeSet) (hr : s.startup.role = .inlet) :
    (s.startup.station ≠ .loading → (s.setSafe q).safe = q) ∧
    (s.startup.station ≠ .loading → s.safe.nonempty = false → q.nonempty = true →
      (s.setSafe q).flag .safeActive = true ∧ (s.setSafe q).regime = .safe ∧
      (s.setSafe q).ramps.damper.target = s.cfg.mix.safeDamper ∧
      (s.setSafe q).ramps.blower.target = s.cfg.mix.safeBlower) ∧
    (s.startup.station ≠ .loading → s.safe.nonempty = true → q.nonempty = false →
      (s.setSafe q).flag .safeActive = false ∧ RegimeSelected (s.setSafe q) ∧ TargetsHanded (s.setSafe q)) ∧
    (s.safe.nonempty = q.nonempty → (s.setSafe q).flag .safeActive = s.flag .safeActive ∧
      (s.setSafe q).regime = s.regime ∧ (s.setSafe q).ramps = s.ramps ∧ (s.setSafe q).mix = s.mix) := by
  have hw : s.startup.station ≠ .loading → s.listWorks = true := fun h => s.listWorks_iff.mpr ⟨hr, h⟩
  have e0 : s.startup.station ≠ .loading → s.setSafe q = (match s.safe.nonempty, q.nonempty with
    | false, true => (({ ({ s with safe := q } : State) with regime := .safe } : State).setFlag
      .safeActive).applySafePosition
    | true, false => (({ s with safe := q } : State).clearFlag .safeActive).rederive
    | _, _ => ({ s with safe := q } : State)) := by
    intro h
    unfold setSafe
    exact if_neg (by rw [hw h]; decide)
  have enter : s.startup.station ≠ .loading → s.safe.nonempty = false → q.nonempty = true → s.setSafe q =
      (({ ({ s with safe := q } : State) with regime := .safe } : State).setFlag .safeActive).applySafePosition := by
    intro h a b; rw [e0 h, a, b]
  have left : s.startup.station ≠ .loading → s.safe.nonempty = true → q.nonempty = false → s.setSafe q =
      (({ s with safe := q } : State).clearFlag .safeActive).rederive := by
    intro h a b; rw [e0 h, a, b]
  have inside : s.startup.station ≠ .loading → s.safe.nonempty = q.nonempty → s.setSafe q = ({ s with safe := q } :
    State) := by
    intro h a; rw [e0 h, a]; cases q.nonempty <;> rfl
  refine ⟨?_, ?_, ?_, ?_⟩
  · intro h
    cases a : s.safe.nonempty <;> cases b : q.nonempty
    · rw [inside h (a.trans b.symm)]
    · rw [enter h a b]
      exact applySafePosition_only _ .safeSet (by decide)
    · rw [left h a b]
      exact rederive_only _ .safeSet (by decide)
    · rw [inside h (a.trans b.symm)]
  · intro h a b
    rw [enter h a b]
    generalize hx : (({ ({ s with safe := q } : State) with regime := .safe } : State).setFlag .safeActive) = x
    have xr : x.startup.role = .inlet := by rw [← hx]; exact hr
    have k := applySafePosition_targets x xr
    have xc : x.cfg = s.cfg := by rw [← hx]; rfl
    refine ⟨?_, ?_, ?_, ?_⟩
    · have n := applySafePosition_notes x (.flag .safeActive) (by simp)
      rw [show State.flag _ _ = _ from n, ← hx, setFlag, flag_writeFlag, if_pos rfl]
    · rw [show State.regime _ = _ from applySafePosition_only x .regime (by decide), ← hx]; rfl
    · rw [k.1, xc]
    · rw [k.2, xc]
  · intro h a b
    rw [left h a b]
    generalize hx : ({ s with safe := q } : State).clearFlag .safeActive = x
    have xw : x.listWorks = true := by rw [← hx]; exact hw h
    refine ⟨?_, rederive_selected x xw⟩
    have n := rederive_notes x (.flag .safeActive) (by simp)
    rw [show State.flag _ _ = _ from n, ← hx, clearFlag, flag_writeFlag, if_pos rfl]
  · intro a
    by_cases h : s.startup.station = .loading
    · have : s.setSafe q = s := by
        unfold setSafe
        rw [if_pos]
        unfold listWorks; simp [h]
      rw [this]; exact ⟨rfl, rfl, rfl, rfl⟩
    · rw [inside h a]; exact ⟨rfl, rfl, rfl, rfl⟩

theorem safeReasonsChanged_handed (s : State) (q : SafeSet) (hr : s.startup.role ≠ .inlet) :
    SafeReasonHanded q s s.safeReasonsChanged := by
  have ho := safeReasonsChanged_only s
  have wk : s.emittersWork = true ↔ s.startup.station = .running := by unfold emittersWork; simp [hr]
  have fr : s.safeReasonsChanged.forceRequest = s.forceRequest := by
    have a := ho .inputs (by decide); have b := ho .cfg (by decide); have c := ho .station (by decide)
    have d := ho .role (by decide)
    unfold forceRequest functionLevel inputFunction inputActive
    rw [show State.inputs _ = _ from a, show State.cfg _ = _ from b, show Startup.station _ = _ from c,
      show Startup.role _ = _ from d]
  have rs : s.safeReasonsChanged.ruleSafe = s.ruleSafe := by
    have a := ho .rules (by decide); have b := ho .cfg (by decide)
    unfold ruleSafe
    rw [show State.rules _ = _ from a, show State.cfg _ = _ from b]
  have ow : s.safeReasonsChanged.startup.own = s.startup.own := (ho .straps (by decide)).1
  have cf : s.safeReasonsChanged.cfg = s.cfg := ho .cfg (by decide)
  refine ⟨fun k => absurd k hr, fun k => absurd k hr, fun k => absurd k hr, fun k => absurd k hr, fun k => absurd k hr,
    ?_, ?_, ?_, ?_, ?_⟩
  · intro _ hst hz hh
    rw [fr, rs] at hh
    have ns : s.startup.station ≠ .conflict := by rw [hst]; decide
    have hb : (s.forceRequest || s.ruleSafe) = true := by simpa using hh
    have e : s.safeReasonsChanged = (s.setSafeEmitter (emitterHeld safeRepeatTime)).post .safe
      (safeFrame s s.forceRequest s.ruleSafe s.cfg.safeHoldS) := by
      unfold safeReasonsChanged
      rw [if_neg (by rw [wk.mpr hst]; decide), if_neg (by rw [hz]; decide), if_pos hb]
    have po := post_only (s.setSafeEmitter (emitterHeld safeRepeatTime)) .safe
      (safeFrame s s.forceRequest s.ruleSafe s.cfg.safeHoldS)
    have f := ownFrame_head s 1 0 (byte1 (bitsValue [s.forceRequest, s.ruleSafe]) ++ byte1 s.cfg.safeHoldS)
      (by decide) (by decide)
    constructor
    · rw [e, show State.emitters _ = _ from po .emitters (by decide)]; rfl
    · refine ⟨_, (congrArg (State.frames · .safe) e).trans (frames_post _ _ _ ns (by simp) (by simp)), f.1,
        f.2.2.trans ow.symm, rfl, ?_, ?_, ?_⟩
      · rw [fr]; show (BitVec.ofNat 8 _).toNat.testBit 0 = _
        cases s.forceRequest <;> cases s.ruleSafe <;> rfl
      · rw [rs]; show (BitVec.ofNat 8 _).toNat.testBit 1 = _
        cases s.forceRequest <;> cases s.ruleSafe <;> rfl
      · rw [cf]; show (BitVec.ofNat 8 _).toNat = _; simp
  · intro _ hst hz h1 h2
    rw [fr] at h1; rw [rs] at h2
    have ns : s.startup.station ≠ .conflict := by rw [hst]; decide
    have e : s.safeReasonsChanged = (s.setSafeEmitter emitterOff).post .safe (safeFrame s false false 0) := by
      unfold safeReasonsChanged
      rw [if_neg (by rw [wk.mpr hst]; decide), if_pos hz, if_neg (by rw [h1, h2]; decide)]
    have po := post_only (s.setSafeEmitter emitterOff) .safe (safeFrame s false false 0)
    have f := ownFrame_head s 1 0 (byte1 (bitsValue [false, false]) ++ byte1 0) (by decide) (by decide)
    constructor
    · rw [e, show State.emitters _ = _ from po .emitters (by decide)]; rfl
    · exact ⟨_, (congrArg (State.frames · .safe) e).trans (frames_post _ _ _ ns (by simp) (by simp)), f.1,
        f.2.2.trans ow.symm, rfl, rfl⟩
  · intro _ h
    rw [fr, rs] at h
    have e : s.safeReasonsChanged = s := by
      unfold safeReasonsChanged
      rcases h with h | h | h
      · rw [if_pos]; cases hh : s.emittersWork; rfl; exact absurd (wk.mp hh) h
      · split; rfl
        rw [if_pos h.1, if_pos (by simpa using h.2)]
      · split; rfl
        rw [if_neg (by rw [h.1]; decide), if_neg (by rw [h.2.1, h.2.2]; decide)]
    rw [e]; exact ⟨rfl, rfl⟩
  · constructor
    · have k1 (e f) := post_only (s.setSafeEmitter e) .safe f .emitters (by decide)
      unfold safeReasonsChanged
      split; rfl
      split
      · split; rfl
        rw [show State.emitters _ = _ from k1 _ _]; rfl
      · split
        · rw [show State.emitters _ = _ from k1 _ _]; rfl
        · rfl
    · exact ho .demands (by decide)
  · intro _
    exact ⟨ho .safeSet (by decide), ho .regime (by decide),
      ramps_ext (ho .damper (by decide)) (ho .blower (by decide)) (ho .settle (by decide))⟩

theorem setSafe_handed (s : State) (q : SafeSet) (hr : s.startup.role = .inlet) :
    SafeReasonHanded q s (s.setSafe q) := by
  have k := setSafe_does s q hr
  have ho := setSafe_only s q
  have n := setSafe_notes s q (.box .safe) (by simp)
  exact ⟨fun _ => k.1, fun _ => k.2.1, fun _ => k.2.2.1, fun _ => k.2.2.2, 
    fun _ => ⟨ho .emitters (by decide), frames_same n⟩, fun h => absurd hr h, fun h => absurd hr h, fun h => absurd hr h,
    ⟨congrArg Emitters.demand (ho .emitters (by decide)), ho .demands (by decide)⟩, fun h => absurd hr h⟩

/-- A change of the force request, handed on whatever the role. -/
theorem forceChanged_handed (s : State) :
    SafeReasonHanded { s.safe with force := s.forceRequest } s s.forceChanged := by
  unfold forceChanged
  split
  · next h => exact setSafe_handed s _ h
  · next h => exact safeReasonsChanged_handed s _ h

/-- A change of the rule safe condition, handed on whatever the role. -/
theorem ruleSafeChanged_handed (s : State) :
    SafeReasonHanded { s.safe with rule := s.ruleSafe } s s.ruleSafeChanged := by
  unfold ruleSafeChanged
  split
  · next h => exact setSafe_handed s _ h
  · next h => exact safeReasonsChanged_handed s _ h

end State
end Sys2Proof.Machine
end

