-- ==== Sys2Proof/Laws/Does.lean ====
section
/-! SUPPORT. `Does`: what a command can do, in full. Beside the acts of the owners stand the resets, the entries to the
station states, the steps of a channel, the outcomes and the reception. An invariant of every step is proved by proving it
for each of these and for the passing of a millisecond. -/

namespace Sys2Proof.Machine

open Sys2Proof

/-- What a command can do. -/
inductive Does : State → State → Prop
  | act {s t : State} : Act s t → Does s t
  | trans {s t u : State} : Does s t → Does t u → Does s u
  | dequeue (s : State) : Does s s.dequeue
  | choose (s : State) : Does s s.chooseOffer
  | powerOn (s : State) : Does s s.coldReset
  | fullReset (s : State) : Does s s.fullReset
  | pins (s : State) (p : Pins) : Does s { s with pins := p }
  | joins (s : State) (l : Loaded) : s.startup.station = .loading → Does s (s.takeConfiguration l).startBlocks
  | safeCodes (s : State) :
      Does s (({ s with regime := .safe }).takeTargets s.cfg.mix.safeDamper s.cfg.mix.safeBlower)
  | runs (s : State) : s.startup.station = .joining →
      Does s { s with startup := { s.startup with station := .running, joining := none } }
  | conflict (s : State) : s.startup.station ≠ .loading → Does s (s.quiet.setFlag .conflict)
  | steps (s : State) (n : RampName) : (s.ramps.channel n).moving = true →
      Does s (s.putChannel n ((s.ramps.channel n).step (rampCfg s.cfg n)))
  | removes (s : State) : Does s (s.settleOffer s.transmit.boxes.removeOffered)
  | keeps (s : State) : Does s (s.settleOffer s.transmit.boxes.keepOffered)
  | abandons (s : State) (l : List Frame) : Does s (s.setAbandoned l)
  | scoreSent (s : State) : Does s s.scoreSent
  | scoreFailed (s : State) : Does s s.scoreFailed
  | score (s : State) (n : Nat) : (s.link.score ≤ 255 → n ≤ 255) → Does s (s.setLink n s.link.state)
  | withdrawalEnds (s : State) : s.link.state = .withdrawn →
      Does s (({ s with link := { s.link with score := 0, state := .active, withdrawal := none } }).clearFlag
        .linkWithdrawn)
  | queue (s : State) (q : List Frame) : (s.receive.queue.length ≤ 16 → q.length ≤ 16) → Does s (s.setQueue q)
  | linkReset (s : State) (f : Frame) :
      Does s (((s.linkCleared f).clearFlag .linkPassive).clearFlag .linkWithdrawn)
  | mark (s : State) : Does s { s with startup := { s.startup with pendingReset := true } }

namespace Does

theorem refl (s : State) : Does s s := act (Act.refl s)

theorem ite {s t u : State} {c : Prop} [Decidable c] (h : Does s t) (k : Does s u) : Does s (if c then t else u) := by
  split <;> assumption

/-- A command that ends with the choice of the frame on offer. -/
theorem ends {s t u : State} (h : Does s t) (e : finish t = .next u) : Does s u := by
  cases e
  exact h.trans (choose t)

theorem resetIf {s t : State} (h : Does s t) (b : Bool) : Does s (t.resetIf b) := by
  unfold State.resetIf
  exact ite (h.trans (fullReset t)) h

theorem inletJoins (s : State) : Does s s.inletJoins := by
  unfold State.inletJoins
  dsimp only
  have h2 := ite (c := s.forceRequest = true)
    ((safeCodes s).trans (act (Act.setForceMember _ true))) (safeCodes s)
  have h3 := ite (c := s.recircSwitch = true) (h2.trans (act (Act.raiseLocal _ 2 .recirc s.cfg.driverLevel))) h2
  exact ite (h3.trans (act (Act.raiseLocal _ 3 .flush s.cfg.driverLevel))) h3

theorem enterJoining (s : State) (l : Loaded) (h : s.startup.station = .loading) :
    Does s (s.takeConfiguration l).enterJoining := by
  unfold State.enterJoining
  dsimp only
  exact trans (ite ((joins s l h).trans (inletJoins _)) (joins s l h)) (act (Act.post _ _ _))

theorem enterRunning (s : State) (h : s.startup.station = .joining) : Does s s.enterRunning := by
  unfold State.enterRunning
  dsimp only
  exact ite ((runs s h).trans (act (Act.rederive _))) ((runs s h).trans (act (Act.emittersTake _)))

theorem enterConflict (s : State) (h : s.startup.station ≠ .loading) : Does s s.enterConflict := by
  unfold State.enterConflict
  exact ite (fullReset s) ((conflict s h).trans (act (Act.setSafe _ _)))

theorem countSent (s : State) (f : Frame) : Does s (s.countSent f) := by
  unfold State.countSent
  exact act (Act.ite ((Act.count _ _).trans (Act.count _ _)) (Act.count _ _))

/-- An outcome counted in LOADING: the counters and the score. -/
theorem scoreInLoading {s t : State} (h : Only noteParts s t) (n : Nat) (hn : s.link.score ≤ 255 → n ≤ 255) :
    Does s (s.scoreInLoading t n) := by
  have hk : Only [.counters] s { t with flags := s.flags } :=
    State.keepFlags_only (h.mono (by decide))
  have hl : ({ t with flags := s.flags } : State).link.state = s.link.state := hk .linkState (by decide)
  have hs : ({ t with flags := s.flags } : State).link.score = s.link.score := hk .score (by decide)
  have hd := score { t with flags := s.flags } n (by rw [hs]; exact hn)
  rw [hl] at hd
  exact (act (Act.of hk)).trans hd

theorem eraseP_length {q : List Frame} (h : q.any (fun g => !isSafeFrame g) = true) :
    (q.eraseP fun g => !isSafeFrame g).length + 1 = q.length := by
  obtain ⟨x, hx, hp⟩ := List.any_eq_true.mp h
  rw [List.length_eraseP_of_mem hx hp]
  have := List.length_pos_of_mem hx
  omega

theorem enqueue (s : State) (f : Frame) : Does s (s.enqueue f) := by
  unfold State.enqueue
  dsimp only
  split
  · next h =>
    have hq : Does s (s.setQueue (s.receive.queue ++ [f])) := queue s _ fun _ => by
      rw [List.length_append, List.length_singleton]
      exact h
    exact ite (hq.trans (act (Act.crowding _))) hq
  · split
    · next h =>
      have ha := eraseP_length (Bool.and_eq_true_iff.mp h).2
      refine trans (trans (queue s _ fun hs => ?_) (act (Act.overflow _))) (act (Act.crowding _))
      rw [List.length_append, List.length_singleton]
      omega
    · exact act ((Act.overflow s).trans (Act.crowding _))

theorem receiveFrame (s : State) (f : Frame) (h : s.startup.station ≠ .loading) : Does s (s.receiveFrame f) := by
  unfold State.receiveFrame
  refine ite (ite (refl s) (enterConflict s h)) ?_
  unfold State.filterFrame
  exact ite ((act (Act.count _ _)).trans (enqueue _ _)) (act (Act.count _ _))

theorem resetLink (s : State) (f : Frame) : Does s (s.resetLink f) := by
  unfold State.resetLink
  exact ite (fullReset s) ((linkReset s f).trans (act (Act.endPeerStretch _)))

theorem acceptResetAll (s : State) (f : Frame) : Does s (s.acceptResetAll f) := by
  unfold State.acceptResetAll
  exact ite (fullReset s) (ite (act (Act.answer _ _)) ((mark s).trans (act (Act.answer _ _))))

theorem serve {s u : State} {r : Request} {f : State → Frame → State} (h : ∀ t g, Does t (f t g))
    (e : s.serve r (fun t g => t.unlessMoving g f) = .next u) : Does s u := by
  unfold State.serve at e
  split at e
  · exact ends (refl s) e
  · split at e
    · refine ends ((dequeue s).trans ?_) e
      unfold State.unlessMoving
      exact ite (act (Act.answered _ _ _)) (h _ _)
    · exact ends (dequeue s) e

end Does

open Does in
/-- Every command does nothing but what `Does` lists. -/
theorem exec_does {c : Instr} {s t : State} (e : exec c s = .next t) : Does s t := by
  by_cases hc : plainCommand c = true
  · obtain ⟨m, u, hm, ha, he⟩ := exec_plain c s hc
    rw [he] at e
    refine ends ?_ e
    rcases hm with rfl | rfl
    · exact act ha
    · exact (dequeue s).trans (act ha)
  · cases c <;> first | (exact absurd rfl hc) | simp only [exec] at e
    case powerOnReset => exact ends (powerOn s) e
    case loadingComplete img =>
      unfold execLoadingComplete at e
      split at e
      · next h => exact ends (enterJoining s _ h) e
      · exact ends (refl s) e
    case joiningTimerExpiry =>
      unfold execJoiningTimerExpiry at e
      split at e
      · next h => exact ends (enterRunning s h.1) e
      · exact ends (refl s) e
    case pinEdge p l =>
      unfold execPinEdge at e
      split at e
      · exact ends (refl s) e
      · dsimp only at e
        split at e
        · next i _ =>
          refine ends (trans (pins s (s.pins.set (.input i) l)) (act (Act.fields fun p hp => ?_))) e
          cases p <;> first | rfl | exact ⟨rfl, rfl⟩ | exact ⟨rfl, rfl, rfl⟩ | exact absurd (by decide) hp
        · exact ends (pins s _) e
        · exact ends (pins s _) e
    case intervalTimerExpiry n =>
      unfold execIntervalTimerExpiry at e
      dsimp only at e
      split at e
      · next h => exact ends (steps s n h.1) e
      · exact ends (refl s) e
    case sent =>
      unfold execSent at e
      dsimp only at e
      split at e
      · split at e
        · exact ends ((abandons s _).trans (scoreInLoading (State.countSent_only _ _) _ fun h => by
            change s.link.score ≤ 255 at h; omega)) e
        · exact ends (((abandons s _).trans (countSent _ _)).trans (scoreSent _)) e
      · exact ends (resetIf (((removes s).trans (countSent _ _)).trans (scoreSent _)) _) e
      · exact ends (refl s) e
    case arbitrationLost =>
      unfold execArbitrationLost at e
      dsimp only at e
      split at e
      · exact ends (abandons s _) e
      · exact ends (resetIf (keeps s) _) e
      · exact ends (refl s) e
    case failed =>
      unfold execFailed at e
      dsimp only at e
      split at e
      · split at e
        · exact ends ((abandons s _).trans (scoreInLoading (State.count_only _ _) _ fun _ => Nat.min_le_left _ _)) e
        · exact ends (resetIf (((abandons s _).trans (act (Act.count _ _))).trans (scoreFailed _)) _) e
      · exact ends (resetIf (((keeps s).trans (act (Act.count _ _))).trans (scoreFailed _)) _) e
      · exact ends (refl s) e
    case withdrawalTimerExpiry =>
      unfold execWithdrawalTimerExpiry at e
      split at e
      · next h => exact ends (withdrawalEnds s h.1) e
      · exact ends (refl s) e
    case frameReceived f =>
      unfold execFrameReceived at e
      split at e
      · exact ends (refl s) e
      · next h => exact ends (receiveFrame s f h) e
    case resetLink => exact serve (f := State.resetLink) Does.resetLink e
    case resetAll => exact serve (f := State.acceptResetAll) Does.acceptResetAll e
    case fullResetCarriedOut =>
      unfold execFullResetCarriedOut at e
      exact ends (ite (c := s.startup.pendingReset = true) (fullReset s) (refl s)) (by split <;> simp_all [finish])

end Sys2Proof.Machine
end

