-- ==== Sys2Proof/Laws/Plumes.lean ====
section
/-! SUPPORT. The order of the plume records: putting one in its place, and sorting them all. -/

namespace Sys2Proof.Machine

open Sys2Proof

/-- Two records stand in the order of R71. -/
abbrev InOrder (a b : PlumeRecord) : Prop := a.df < b.df ∨ (a.df = b.df ∧ a.created ≤ b.created)

theorem insertRecord_perm (r : PlumeRecord) (l : List PlumeRecord) : (insertRecord r l).Perm (r :: l) := by
  induction l with
  | nil => exact .refl _
  | cons x xs ih =>
    unfold insertRecord
    split
    · exact .refl _
    · exact (ih.cons x).trans (.swap _ _ _)

theorem sortRecords_perm (l : List PlumeRecord) : (sortRecords l).Perm l := by
  induction l with
  | nil => exact .refl _
  | cons x xs ih => exact (insertRecord_perm x _).trans (ih.cons x)

theorem insertRecord_ordered (r : PlumeRecord) (l : List PlumeRecord) (h : l.Pairwise InOrder) :
    (insertRecord r l).Pairwise InOrder := by
  induction l with
  | nil => exact List.pairwise_singleton _ _
  | cons x xs ih =>
    have hx := List.pairwise_cons.mp h
    unfold insertRecord
    split
    · next k =>
      have k := of_decide_eq_true k
      refine List.pairwise_cons.mpr ⟨fun y hy => ?_, h⟩
      cases hy with
      | head => exact k
      | tail _ hy =>
        have := hx.1 y hy
        unfold InOrder at *
        omega
    · next k =>
      have k : ¬ _ := fun q => k (decide_eq_true q)
      refine List.pairwise_cons.mpr ⟨fun y hy => ?_, ih hx.2⟩
      cases (insertRecord_perm r xs).mem_iff.mp hy with
      | head =>
        unfold InOrder
        omega
      | tail _ hy => exact hx.1 y hy

theorem sortRecords_ordered (l : List PlumeRecord) : (sortRecords l).Pairwise InOrder := by
  induction l with
  | nil => exact List.Pairwise.nil
  | cons x xs ih => exact insertRecord_ordered x _ ih

/-- An update of records that keeps distance and creation keeps their order. -/
theorem map_ordered {l : List PlumeRecord} (f : PlumeRecord → PlumeRecord)
    (hf : ∀ r, (f r).df = r.df ∧ (f r).created = r.created) (h : l.Pairwise InOrder) : (l.map f).Pairwise InOrder := by
  rw [List.pairwise_map]
  refine h.imp fun {a b} k => ?_
  unfold InOrder
  rw [(hf a).1, (hf b).1, (hf a).2, (hf b).2]
  exact k

end Sys2Proof.Machine
end

