-- ==== Sys2Proof/WellFormed.lean ====
section
/-! DEFINITION. Which terms of `Instr` are events that can come to the part: the ranges the manual gives the operands
that their types do not already hold. The step does not consult it; the meanings are total. -/

namespace Sys2Proof

/-- A classic data frame carries 0 to 8 data bytes (00, Signals). -/
def Frame.wellFormed (f : Frame) : Bool := decide (f.data.length ≤ 8)

/-- A command is well formed: a raw code is 0–4095 (R3), the image read is 512 bytes (R180), a frame carries at most 8
data bytes. -/
def Instr.wellFormed : Instr → Bool
  | .loadingComplete image => decide (image.length = 512)
  | .dwellExpiry code _ => decide (code ≤ 4095)
  | .frameReceived frame => frame.wellFormed
  | .powerOnReset | .joiningTimerExpiry | .warmUpExpiry _ | .suspectTimerExpiry _ | .pinEdge _ _
  | .debounceExpiry _ | .odoPulse | .travelTimerExpiry _ | .standstillTimerExpiry | .travelTaken _
  | .lossTimerExpiry | .statusTaken | .readingTaken | .readingStale _ _ _ | .silenceLimitReached _
  | .updateTimerExpiry | .maxOpenTimerExpiry | .sightTaken | .approachCapExpiry _ _ | .engulfCapExpiry _ _
  | .postHoldExpiry | .demandTaken | .demandHoldExpiry _ _ | .safeTaken | .safeHoldExpiry _
  | .demandRepeatExpiry _ | .safeRepeatExpiry | .scrubTimerExpiry | .checkTimerExpiry
  | .intervalTimerExpiry _ | .settleTimerExpiry | .accountingTimerExpiry | .sent | .arbitrationLost | .failed
  | .withdrawalTimerExpiry | .statusTimerExpiry | .readingTimerExpiry | .guardExpiry | .hushTaken
  | .stretchEnd _ | .frameDiscarded | .query | .clearCounters | .clearFlags | .clearFilter | .resetLink
  | .resetPlume | .resetDemands | .resetAll | .fullResetCarriedOut | .lampTest | .unknownRequest => true

end Sys2Proof
end

