-- ==== Sys2Proof/Tests/Slice0.lean ====
section
/-! SUPPORT. The model's own tests: what WellFormed refuses, worked examples of the manual, and for every obligation with
hypotheses states that meet them, at the boundaries of its clauses. -/

namespace Sys2Proof.Tests

open Sys2Proof Sys2Proof.Machine

/-! ## Small states -/

/-- A slot that converts AIN0 and measures PM outside. -/
def slotCfg : SlotCfg :=
  { channel := some (.ain 0), kind := .pm, location := .outside, gain := 0, offset := 0, fullScale := 1000, shift := 2
    limit := 100, dwell := .ms10, warmUpS := 60, publish := true, railCheck := true, plumeWatch := true }

/-- The configuration of the tests: the chapters' defaults, slots 0 to 1 swept, DOOR on input 0, positions set. -/
def cfg : Cfg :=
  { travelSource := false, safeJump := true, startSlot := 0, stopSlot := 1, faultTimeS := 5, staleTimeMs := 2000
    statusInterval := 10, readingInterval := 5, pulseScale := 40, demandHoldS := 6, safeHoldS := 3, driverLevel := 5
    scrubLevel := 3, scrubTimeS := 60, targetBurden := 300, feedbackSlot := some 1, stallTolerance := 40
    fullFlow := 150, efficiency := 950, capacityMg := 20000
    slots := tabulate fun _ => slotCfg
    inputs := tabulate fun i =>
      { function := if i = 0 then .door else .none, polarity := .activeHigh, debounceMs := 50 }
    detector := { shift := 8, openThreshold := 300, closeThreshold := 150, maxOpenS := 45 }
    timeline :=
      { geometry := tabulate fun i => if i = 7 then none else some (10 * i.val), mask := ⟨true, true⟩, leadMargin := 5
        tailMargin := 20, reverseDrop := 50, approachCapS := 15, engulfCapS := 120, plumeLevel := 4, postHoldS := 3 }
    damper := { mode := .linear, step := 32, intervalMs := 20 }
    blower := { mode := .eased, step := 16, intervalMs := 50 }
    mix := defaultMix
    rules := tabulate fun i =>
      { enabled := decide (i ≠ 7), operandA := .slotValue 0, comparand := .constant 100, relation := .ge
        hysteresis := 20, fireCount := 2, releaseCount := 2, action := .demand .flush 5 }
    accept := tabulate fun i => { enabled := decide (i = 0), value := 0, mask := 0 }
    classes := tabulate fun i => defaultClass i }

/-- A station of a role, in a station state, with number 2. -/
def station (role : Role) (st : Station) : State :=
  { State.reset with
    cfg := cfg, startup := { station := st, role := role, own := 2, strap := 1, joining := none, pendingReset := false } }

/-- The state after a command; a stop leaves the state as it was. -/
def after (c : Instr) (s : State) : State :=
  match exec c s with
  | .next t => t
  | .fault _ => s
  | .refused _ => s

/-- A frame of a kind, an index and a sender. -/
def frame (kind index sender : Nat) (data : List Nat) : Frame :=
  { id := BitVec.ofNat 11 (kind * 128 + index * 8 + sender), data := data.map (BitVec.ofNat 8) }

/-- The state with one frame in the receive queue. -/
def receiving (f : Frame) (s : State) : State := { s with receive := { s.receive with queue := [f] } }

/-- A peer entry that is PRESENT, of a role. -/
def peer (role : Role) : PeerInfo :=
  { role := role, announced := .running, intervalMs := 1000, lastStatusMs := 3000, burden := some 420, regime := none
    damper := none, summary := 0, readings := [] }

/-- The state with one entry of the peer table. -/
def hearing (n : Fin 8) (x : Presence) (s : State) : State :=
  { s with peers := s.peers.set n { presence := x, tally := 0 } }

/-- A plume record of a key, in a phase. -/
def record (origin : Fin 8) (sequence : Nat) (phase : PlumePhase) : PlumeRecord :=
  { origin := origin, sequence := sequence, species := ⟨true, false⟩, peak := 500, offset := 20, df := 7, length := none
    dt := none, background := false, phase := phase, ageMs := 0, engulfMs := none, created := 0 }

/-- The state with these plume records. -/
def tracking (rs : List PlumeRecord) (s : State) : State := { s with timeline := { s.timeline with records := rs } }

/-- A demand entry of a key and a level, from a message. -/
def entry (n : Fin 8) (source : Fin 16) (level stamp : Nat) : DemandEntry :=
  { station := n, source := source, regime := .flush, level := level, hold := some 3000, stamp := stamp }

/-- The state with these entries in its demand list. -/
def demanding (es : List DemandEntry) (s : State) : State :=
  { s with demands := { entries := es, nextStamp := es.length } }

/-- Sixteen message entries of level 3, the last of level 1. -/
def fullList : List DemandEntry :=
  (List.range 15).map (fun n => { entry 5 0 3 n with source := ⟨n % 16, Nat.mod_lt _ (by decide)⟩ }) ++ [entry 6 0 1 15]

/-- The entry that a local source of station 2 holds. -/
def localEntry (source : Fin 16) (level : Nat) : DemandEntry := { entry 2 source level 0 with hold := none }

/-- What `Delivered` says, as a check. -/
def headIs (s : State) (kind : Nat) (f : Frame) (rest : List Frame) : Bool :=
  decide (s.receive.queue = f :: rest ∧ s.startup.station ≠ .loading ∧ f.kind = kind ∧
    payloadLength kind ≤ f.data.length)

theorem delivered_of_headIs {s : State} {kind : Nat} {f : Frame} {rest : List Frame} (h : headIs s kind f rest = true) :
    Delivered s kind f rest :=
  have k := of_decide_eq_true h
  ⟨k.1, k.2.1, k.2.2.1, k.2.2.2⟩

/-- What `Asked` says, as a check. -/
def headAsks (s : State) (code : Nat) (f : Frame) (rest : List Frame) : Bool :=
  headIs s 8 f rest && decide (f.index.val = code ∧ f.byte 0 = s.startup.own.val ∧ s.startup.station ≠ .conflict)

theorem asked_of_headAsks {s : State} {code : Nat} {f : Frame} {rest : List Frame} (h : headAsks s code f rest = true) :
    Asked s code f rest :=
  have k := (Bool.and_eq_true _ _).mp h
  have d := of_decide_eq_true k.2
  ⟨delivered_of_headIs k.1, d.1, d.2.1, d.2.2⟩

/-! ## What WellFormed refuses -/

theorem test_wellFormed_short_image : Instr.wellFormed (.loadingComplete []) = false := by decide
theorem test_wellFormed_code_above_4095 : Instr.wellFormed (.dwellExpiry 4096 .rulesFirst) = false := by decide
theorem test_wellFormed_code_4095 : Instr.wellFormed (.dwellExpiry 4095 .rulesFirst) = true := by decide
theorem test_wellFormed_long_frame :
    Instr.wellFormed (.frameReceived (frame 4 0 1 [0, 0, 0, 0, 0, 0, 0, 0, 0])) = false := by decide
theorem test_wellFormed_frame :
    Instr.wellFormed (.frameReceived (frame 4 0 1 [0, 0, 0, 0, 0, 0, 0, 0])) = true := by decide

/-! ## Worked examples of the manual -/

/-- R40: with P = 40 a pulse that finds the accumulator at 20 makes three decimetres and leaves 0. -/
theorem test_pulse_at_forty :
    (Source.pulse 40 { resetSource with accumulator := 20 }).accumulator = 0 ∧
      (Source.pulse 40 { resetSource with accumulator := 20 }).count = 3 := by decide

/-- R48: a count that goes from 65534 to 2 gives 4. -/
theorem test_count_wraps : countDelta 2 65534 = 4 := by decide

/-- R105: a hold of 6 s repeats after 2000 ms, one of 10 s after 3300 ms. -/
theorem test_repeat_times : repeatTime { cfg with demandHoldS := 6 } = 2000 ∧
    repeatTime { cfg with demandHoldS := 10 } = 3300 := by decide

/-- Section 7.7: 1010 ppm gives a floor of 350; r = 650 gives 664, r = 500 gives 520; 420 ‰ in the cab gives 396. -/
theorem test_mix_law_case : freshFloor defaultMix (some 1010) = 350 ∧ recircWish defaultMix (some 1850) 420 = 1000 ∧
    damperCode defaultTable 650 = 664 ∧ damperCode defaultTable 500 = 520 ∧ blowerCode cfg 420 = 396 := by decide

/-- Section 7.8: the ends of the law. -/
theorem test_mix_law_limits : freshFloor defaultMix (some 1500) = 1000 ∧ damperCode defaultTable 0 = 80 ∧
    damperCode defaultTable 1000 = 940 ∧ damperCode defaultTable 700 = 712 ∧ freshFloor defaultMix none = 300 := by decide

/-- R130: the eased steps with S = 32, phase by phase. -/
theorem test_eased_steps : [0, 1, 2, 3, 4, 5, 6, 7].map (fun j => 32 * easeMultiplier j / 4) =
    [8, 16, 24, 32, 32, 24, 16, 8] := by decide

/-- R133: a LINEAR damper at 80 with S = 32 and T = 20 needs 540 ms to 940. -/
theorem test_closing_time :
    ({ station .inlet .running with ramps := { resetRamps with damper := { resetChannel with output := 80 } } }).closingTime
      = 540 := by decide

/-- R141: an increment by 1 from 4294967295 wraps to 0 with the indicator set. -/
theorem test_counter_wraps : CounterCell.add { count := 4294967295, rollover := false } 1 =
    { count := 0, rollover := true } := by decide

/-- R154: a GE rule with c = 100 and h = 200 holds at 0 once it fires. -/
theorem test_hysteresis : relationHolds .ge true 200 0 100 = true ∧ relationHolds .ge false 200 0 100 = false := by decide

/-- R174: kind 5, index 8, station 2 is the identifier 706. -/
theorem test_identifier : (frame 5 8 2 []).id = 706 ∧ (frame 5 8 2 []).kind = 5 ∧ (frame 5 8 2 []).index = 8 ∧
    (frame 5 8 2 []).station = 2 := by decide

/-! ## Single commands -/

theorem test_odo_pulse : (after .odoPulse { station .forward .running with
    cfg := { cfg with travelSource := true } }).source.count = 2 := by decide

theorem test_own_number_is_conflict :
    (after (.frameReceived (frame 6 0 2 [])) (station .inlet .running)).startup.station = .conflict := by decide

theorem test_lamp_test_asserts_the_pin :
    (after .lampTest (receiving (frame 8 5 0 [2, 0]) (station .cabin .running))).flags.alert = true := by decide

theorem test_safe_message_makes_the_inlet_safe :
    (after .safeTaken (receiving (frame 1 0 4 [1, 3]) (station .inlet .running))).ramps.damper.output = 80 := by decide

theorem test_query_is_answered :
    ((after .query (receiving (frame 8 0 0 [2, 3]) (station .cabin .running))).transmit.boxes.answer).length = 4 := by
  decide

theorem test_step_runs_the_front : (match step { station .cabin .running with pending := [.guardExpiry] } with
    | .next t => t.pending
    | _ => [.guardExpiry]) = [] := by decide

/-! ## States that meet the hypotheses: start-up -/

/-- A valid image of zeros, for a role byte. -/
def image (role : Nat) : List Byte :=
  [0x48#8, 0x4D#8, 1#8, BitVec.ofNat 8 role] ++ List.replicate 506 0#8 ++ [0#8, BitVec.ofNat 8 (150 + role)]

theorem witness_EmptyQueuePassesAMillisecond : State.reset.pending = [] := by decide

theorem witness_ResetsLeaveTheResetState :
    (station .inlet .running).transmit.offer = none ∧ (station .inlet .running).transmit.abandoned = [] ∧
    (station .inlet .running).startup.pendingReset = false ∧
      ({ station .inlet .running with startup := { (station .inlet .running).startup with pendingReset := true } }
        ).startup.pendingReset = true := by decide

theorem witness_LoadingDecidesRoleAndConfiguration_invalid : imageValid (imageBytes []) = false := by decide

set_option maxRecDepth 16000 in
theorem witness_LoadingDecidesRoleAndConfiguration_valid : imageValid (imageBytes (image 0)) = true ∧
    byteAt (imageBytes (image 0)) 3 < 1 ∧ imageValid (imageBytes (image 1)) = true ∧
    byteAt (imageBytes (image 1)) 3 = 1 ∧ imageValid (imageBytes (image 2)) = true ∧
    byteAt (imageBytes (image 2)) 3 = 2 ∧ imageValid (imageBytes (image 3)) = true ∧
    byteAt (imageBytes (image 3)) 3 = 3 ∧ imageValid (imageBytes (image 4)) = true ∧
    3 < byteAt (imageBytes (image 4)) 3 := by decide

/-- Fields at the ends of their ranges and beyond them. -/
theorem witness_LoadingDecidesRoleAndConfiguration_fields :
    ((FieldClaim.number 1 30 1 1).inRange ∧ (FieldClaim.number 1 30 30 30).inRange) ∧
    (¬ (FieldClaim.number 1 30 0 1).inRange ∧ (FieldClaim.number 1 30 0 1).corrected) ∧
    (¬ (FieldClaim.number 1 30 31 30).inRange ∧ (FieldClaim.number 1 30 31 30).corrected) ∧
    (¬ (FieldClaim.signed (-512) 511 512 511).inRange ∧ (FieldClaim.signed (-512) 511 512 511).corrected) ∧
    (FieldClaim.listed (kindOfCode 0) Kind.pm .temp).inRange ∧
    ¬ (FieldClaim.listed (kindOfCode 7) Kind.temp .temp).inRange ∧
    (FieldClaim.numberIf False 1 15 0 1).inRange := by
  simp [FieldClaim.number, FieldClaim.signed, FieldClaim.listed, FieldClaim.numberIf, kindOfCode]

/-- A valid image of a role with one more byte set, and zeros elsewhere. -/
def imageAt (role at_ value : Nat) : List Byte :=
  ((image role).take 510).set at_ (BitVec.ofNat 8 value) ++ [0#8, BitVec.ofNat 8 (150 + role + value)]

/-- The station in LOADING on a strap, with FORCE and DIN0 at a level. -/
def loadingAt (strap : Fin 4) (level : Bool) : State :=
  let p := (State.reset.pins.set (.input .force) level).set (.input (.din 0)) level
  { State.reset with pins := p, startup := { State.reset.startup with strap := strap } }

set_option maxRecDepth 16000 in
theorem witness_LoadingCompleteEntersJoining : 
    (∀ k ∈ [(0 : Fin 4), 1, 2], ∀ l : Bool, (loadingAt k l).startup.station = .loading ∧
      (loadingAt k l).demands.entries = [] ∧ (loadingAt k l).safe.nonempty = false ∧
      ((loadImage k.val []).role = .inlet ↔ k = 1)) ∧
    (loadImage 1 (imageAt 2 4 1)).cfg.travelSource = true ∧ (loadImage 1 []).cfg.travelSource = false := by decide

set_option maxRecDepth 16000 in
theorem witness_LoadingCompleteEntersJoining_warmUp : 
    inSweep (loadImage 1 (image 2)).cfg 0 = true ∧ (loadImage 1 (image 2)).cfg.slots[(0 : Fin 16)].channel = some (.ain 0) ∧
    (loadImage 1 (image 2)).cfg.slots[(0 : Fin 16)].warmUpS = 0 ∧
    (loadImage 1 (imageAt 2 46 1)).cfg.slots[(0 : Fin 16)].warmUpS = 1 ∧
    (loadImage 1 (imageAt 2 32 10)).cfg.slots[(0 : Fin 16)].channel = none ∧
    inSweep (loadImage 1 (image 2)).cfg 1 = false := by decide

set_option maxRecDepth 16000 in
theorem witness_LoadingCompleteEntersJoining_inputs : 
    (∀ l : Bool, (after (.loadingComplete []) (loadingAt 1 l)).forceRequest = l) ∧ 
    (∀ l : Bool, (after (.loadingComplete (imageAt 2 288 2)) (loadingAt 1 l)).recircSwitch = l ∧
    (after (.loadingComplete (imageAt 2 288 3)) (loadingAt 1 l)).flushSwitch = l) := by decide

/-- A station about to enter RUNNING. -/
def joiningStation (role : Role) : State :=
  { station role .joining with startup := { (station role .joining).startup with joining := some 0 } }

/-- The state with input 1 of a function, active high, its pin at a level and its debounce run out at the other. -/
def switching (f : InputFunction) (now : Bool) (s : State) : State :=
  { s with
    cfg := { s.cfg with inputs := s.cfg.inputs.set 1 { function := f, polarity := .activeHigh, debounceMs := 50 } }
    pins := s.pins.set (.input (.din 1)) now, inputs := s.inputs.set (.din 1) { level := !now, timer := some 0 } }

/-- The state with every emitter of the station HELD or OFF. -/
def emitting (held : Bool) (s : State) : State :=
  { s with emitters := { demand := tabulate fun _ => { held := held, timer := none }, safe := { held := held, timer := none } } }

/-- The state whose rules all have an action and are FIRING or not. -/
def acting (a : RuleAction) (firing : Bool) (s : State) : State :=
  { s with
    cfg := { s.cfg with rules := tabulate fun n => { s.cfg.rules[n] with action := a } }
    rules := tabulate fun _ => { firing := firing, fireTally := 1, releaseTally := 1 } }

/-- The safe-source set with the members FORCE and RULE as given. -/
def members (force rule : Bool) (s : State) : State := { s with safe := { s.safe with force := force, rule := rule } }

theorem witness_JoiningTimerExpiryEntersRunning :
    (∀ b held : Bool, ∀ a ∈ [RuleAction.none, .safe, .demand .flush 7],
      let s := acting a b (emitting held (after (.debounceExpiry (.din 1)) (switching .switchRecirc b (joiningStation .cabin))))
      s.startup.station = .joining ∧ s.startup.joining.isSome = true ∧ s.startup.role ≠ .inlet ∧
      s.emitters.demand[(2 : Fin 16)].held = held ∧ s.emitters.safe.held = held ∧
      emitterDemand s.cfg 2 = some (.recirc, 5) ∧ s.emitterCondition 2 = b ∧
      emitterDemand s.cfg 8 = (if a = .demand .flush 7 then some (.flush, 7) else none) ∧
      s.emitterCondition 8 = (b && a.isDemand) ∧
      (s.forceRequest || s.ruleSafe) = (b && decide (a = .safe)))  ∧
    (let s := joiningStation .inlet
     s.startup.station = .joining ∧ s.startup.joining.isSome = true ∧ s.startup.role = .inlet) := by decide

/-! ## Sensing and inputs -/

theorem witness_ConversionAndSmoothing :
    (4095 ≤ 4095 ∧ -512 ≤ (-512 : Int) ∧ (511 : Int) ≤ 511 ∧ -256 ≤ (-256 : Int) ∧ (255 : Int) ≤ 255) ∧
      slotCfg.gain = 0 ∧ slotCfg.offset = 0 := by decide

/-- A station whose slot 0 or 1 is being converted, with one quality in both. -/
def sweeping (position : Fin 16) (q : Quality) (warmedUp : Bool) : State :=
  { station .forward .running with
    sequencer := { position := position, dwell := some 0
                   records := tabulate fun _ => { resetRecord cfg 0 with quality := q, warmedUp := warmedUp } } }

theorem witness_DwellExpiryConvertsTheSlot :
    (∀ w : Bool, ∀ q ∈ [Quality.warming, .good, .suspect, .fault], ∀ i ∈ [(0 : Fin 16), 1],
      (sweeping i q w).sequencer.dwell.isSome = true ∧ (sweeping i q w).cfg.slots[i].channel.isSome = true ∧
        (sweeping i q w).sequencer.records[i].quality = q ∧ (sweeping i q w).sequencer.records[i].warmedUp = w ∧
        (sweeping i q w).cfg.slots[i].railCheck = true) ∧
      (sweeping 0 .good true).sequencer.position ≠ cfg.stopSlot ∧ (sweeping 1 .good true).sequencer.position = cfg.stopSlot ∧
      ({ slotCfg with channel := none } : SlotCfg).channel = none ∧
      (onRails slotCfg 0 = true ∧ onRails slotCfg 4095 = true ∧ onRails slotCfg 1 = false ∧ onRails slotCfg 4094 = false) := by
  decide

theorem witness_SlotTimersExpire : ({ resetRecord cfg 0 with warmUp := some 0, suspect := some 0 } : SlotRecord).warmUp.isSome = true ∧
    ({ resetRecord cfg 0 with warmUp := some 0, suspect := some 0 } : SlotRecord).suspect.isSome = true := by decide

theorem witness_PinEdgeStartsOrStopsTheDebounce : State.reset.pins.level (.input .force) ≠ true ∧
    State.reset.pins.level (.sn 2) ≠ true ∧ (State.reset.inputs.get .force).level ≠ true := by decide

/-- A station with an input's timer run out at a high pin. -/
def bouncing (i : Input) (s : State) : State :=
  { s with pins := s.pins.set (.input i) true, inputs := s.inputs.set i { level := false, timer := some 0 } }

theorem witness_DebounceExpiryTakesThePinLevel :
    ((bouncing .ign (station .inlet .running)).inputs.get .ign).timer.isSome = true ∧
      ((bouncing .rev (station .inlet .running)).inputs.get .rev).timer.isSome = true ∧
      ((bouncing .force State.reset).inputs.get .force).timer.isSome = true ∧
      (bouncing .force State.reset).startup.station = .loading := by decide

theorem witness_ForceRequestReachesTheSafeLogic : ∀ r ∈ [Role.inlet, .cabin],
    let s := bouncing .force (station r .running)
    s.inputs.force.timer.isSome = true ∧ s.forceRequest = false ∧ s.pins.force = true ∧ s.startup.role = r ∧
      s.startup.station = .running ∧ s.safe.nonempty = false ∧ s.emitters.safe.held = false := by decide

theorem witness_DebounceExpiryTakesThePinLevel_switches :
    (∀ f ∈ [InputFunction.switchRecirc, .switchFlush], ∀ now held : Bool, ∀ r ∈ [Role.inlet, .cabin],
      ∀ st ∈ [Station.joining, .running],
      let s := emitting held (switching f now (station r st))
      let t := after (.debounceExpiry (.din 1)) s
      (s.inputs.get (.din 1)).timer.isSome = true ∧ s.startup.role = r ∧ s.startup.station = st ∧
      t.recircSwitch = (decide (f = .switchRecirc) && now) ∧ s.recircSwitch = (decide (f = .switchRecirc) && !now) ∧
      t.flushSwitch = (decide (f = .switchFlush) && now) ∧ s.flushSwitch = (decide (f = .switchFlush) && !now) ∧
      s.emitters.demand[(2 : Fin 16)].held = held ∧ s.emitters.demand[(3 : Fin 16)].held = held) ∧
    (let s := switching .none true (station .inlet .running)
     let t := after (.debounceExpiry (.din 1)) s
     t.anyDoorOpen = s.anyDoorOpen ∧ t.recircSwitch = s.recircSwitch ∧ t.flushSwitch = s.flushSwitch ∧
       t.forceRequest = s.forceRequest) ∧
    (localEntry 2 5 ∈ [localEntry 2 5] ∧ (localEntry 2 5).station = (station .inlet .running).startup.own) ∧
    ((∀ x ∈ fullList, ¬ (x.station = (station .inlet .running).startup.own ∧ x.source = 2)) ∧ fullList.length = 16 ∧
      ∀ w ∈ fullList, w.hold.isSome = true → w = entry 6 0 1 15 ∨ (entry 6 0 1 15).level < w.level) := by decide

theorem witness_ForceRequestReachesTheSafeLogic_changes :
    (∀ now held rule : Bool, ∀ r ∈ [Role.inlet, .cabin], ∀ st ∈ [Station.joining, .running],
      let s := acting .safe rule (members (!now) rule (emitting held (switching .forceAlt now (station r st))))
      let t := after (.debounceExpiry (.din 1)) s
      (s.inputs.get (.din 1)).timer.isSome = true ∧ s.startup.station ≠ .loading ∧ s.startup.role = r ∧
      s.forceRequest = !now ∧ t.forceRequest = now ∧ t.ruleSafe = rule ∧ s.emitters.safe.held = held ∧
      s.safe.nonempty = (!now || rule) ∧ ({ s.safe with force := now } : SafeSet).nonempty = (now || rule)) ∧
    (∀ now : Bool, ∀ r ∈ [Role.inlet, .cabin],
      let s := { station r .running with
        pins := (station r .running).pins.set (.input .force) now
        inputs := (station r .running).inputs.set .force { level := !now, timer := some 0 } }
      s.inputs.force.timer.isSome = true ∧ s.forceRequest = !now ∧ (after (.debounceExpiry .force) s).forceRequest = now) := by
  decide

/-- A CABIN with its door's debounced level and its pin at two levels, the debounce run out. -/
def door (was now scrubbing : Bool) : State :=
  let s := station .cabin .running
  { s with
    pins := s.pins.set (.input (.din 0)) now, inputs := s.inputs.set (.din 0) { level := was, timer := some 0 }
    scrub := if scrubbing then { active := true, timer := some 5, check := some 5 } else scrubOff }

theorem witness_DoorsDriveTheScrub :
    (∀ w n b : Bool, ((door w n b).inputs.get (.din 0)).timer.isSome = true ∧ (door w n b).startup.role = .cabin ∧
      (door w n b).startup.station = .running ∧ (door w n b).cfg.inputs[(0 : Fin 4)].function = .door ∧
      (door w n b).emitters.demand[(1 : Fin 16)].held = false) ∧
    ((door false true true).inputActive 0 = false ∧
      (after (.debounceExpiry (.din 0)) (door false true true)).inputActive 0 = true ∧
      (door false true true).anyDoorOpen = false ∧
      (after (.debounceExpiry (.din 0)) (door false true true)).anyDoorOpen = true ∧
      (door false true true).scrub.active = true) ∧
    ((door true false false).anyDoorOpen = true ∧
      (after (.debounceExpiry (.din 0)) (door true false false)).anyDoorOpen = false ∧
      (door true false false).inputActive 0 = true) := by decide

/-! ## Travel -/

/-- A FORWARD that is a travel source, its timers run out. -/
def source : State :=
  let s := station .forward .running
  { s with
    cfg := { cfg with travelSource := true }
    source := { resetSource with travelTimer := some 0, standstillTimer := some 0 }
    tracker := { resetTracker with state := .tracking, reference := some 2 } }

/-- The room in a window part, at its end: with P = 40 the pulse makes two decimetres from an empty accumulator. -/
theorem witness_PulseIsCountedInDecimetres_part :
    (Source.pulse 40 { resetSource with current := 65533 }).current = 65535 ∧
    (Source.pulse 40 { resetSource with current := 65533 }).count = 2 ∧ 65533 + 2 ≤ 65535 ∧ ¬ 65534 + 2 ≤ 65535 := by
  decide

theorem witness_PulseIsCountedInDecimetres : source.cfg.travelSource = true ∧ source.startup.station ≠ .loading ∧
    1 ≤ source.cfg.pulseScale ∧ source.source.standstillTimer.isSome = true ∧
    (station .inlet .running).cfg.travelSource = false ∧ State.reset.startup.station = .loading := by decide

theorem witness_TravelTimerFormsTravel : source.source.travelTimer.isSome = true ∧ source.startup.station ≠ .conflict ∧
    source.source.count < 65536 ∧ source.tracker.state = .tracking ∧ source.tracker.reference = some source.startup.own ∧
    source.tracker.lastSequence ≠ (source.source.sequence + 1) % 256 ∧
    (after (.travelTimerExpiry .noticeFirst) source).tracker.ignition ≠ source.tracker.ignition := by decide

/-- An INLET with a TRAVEL at the head of the queue, its tracker in a state with a reference. -/
def travelling (st : TrackState) (reference : Option (Fin 8)) (count : Nat) : State :=
  receiving (frame 4 0 4 [count / 256, count % 256, 0, 20, 1, 9])
    { station .inlet .running with
      tracker := { resetTracker with state := st, reference := reference, lastSequence := 8, loss := some 0 } }

theorem witness_TravelTakenByTheTracker :
    (∀ st ∈ [TrackState.unsynced, .tracking, .lost], ∀ r ∈ [none, some (3 : Fin 8), some 4, some 5], ∀ n ∈ [600, 601],
      Delivered (travelling st r n) 4 (frame 4 0 4 [n / 256, n % 256, 0, 20, 1, 9]) []) ∧
    (∀ n ∈ [600, 601], (travelling .tracking (some 4) n).tracker.lastSequence ≠ (frame 4 0 4 [n / 256, n % 256, 0, 20, 1, 9]).byte 5 ∧
      ((frame 4 0 4 [n / 256, n % 256, 0, 20, 1, 9]).word 0 + 65536 - (travelling .tracking (some 4) n).tracker.lastCount) % 65536 = n) ∧
    (frame 4 0 4 [2, 88, 0, 20, 1, 8]).byte 5 = (travelling .tracking (some 4) 600).tracker.lastSequence ∧
    (frame 4 0 4 []).station < (5 : Fin 8) ∧ (3 : Fin 8) < (frame 4 0 4 []).station ∧
    (travelling .lost none 0).cfg.travelSource = false ∧ source.cfg.travelSource = true := by
  have h : ∀ st ∈ [TrackState.unsynced, .tracking, .lost], ∀ r ∈ [none, some (3 : Fin 8), some 4, some 5],
      ∀ n ∈ [600, 601], headIs (travelling st r n) 4 (frame 4 0 4 [n / 256, n % 256, 0, 20, 1, 9]) [] = true := by decide
  exact ⟨fun st a r b n c => delivered_of_headIs (h st a r b n c), by decide⟩

theorem witness_LossTimerMakesTheTrackerLost :
    (let s := tracking [record 0 9 .approaching, record 1 9 .armed] (travelling .tracking (some 4) 0)
     s.tracker.loss.isSome = true ∧ s.startup.role = .inlet ∧ s.startup.station ≠ .loading) ∧
    (let s := { station .forward .running with tracker := { resetTracker with loss := some 0 } }
     s.tracker.loss.isSome = true ∧ s.startup.role = .forward) := by decide

theorem witness_TravelMovesTheSightingAndTheRecords :
    (∀ d ∈ [DetectorState.clear, .pending, .opened, .closing],
      let s := (station .forward .running).setDetector { resetDetector with state := d }
      s.startup.role = .forward ∧ s.detector.state = d) ∧
    (station .inlet .running).startup.role = .inlet ∧ (station .inlet .running).startup.station ≠ .loading := by
  decide

/-- The records of an INLET after a travel notice: APPROACHING ones, df 7 and 400 ahead of an offset of 20. -/
def moved (delta : Nat) (reverse : Bool) (df : Nat) : List PlumeRecord :=
  ((tracking [{ record 0 9 .approaching with df := df }] (station .inlet .running)).timelineTravel delta reverse 0
    ).timeline.records

/-- The boundaries of a travel notice: a distance that just reaches the record, one short of it, a reverse one up to the
reverse drop and beyond it, and delta 0 in both directions. -/
theorem witness_TravelMovesTheSightingAndTheRecords_records :
    (moved 7 false 7).map (·.phase) = [.engulfed] ∧ (moved 6 false 7).map (fun r => (r.phase, r.df)) = [(.armed, 1)] ∧
    (moved 63 true 7).map (·.df) = [70] ∧ moved 64 true 7 = [] ∧
    (moved 0 true 400).map (·.df) = [400] ∧ (moved 0 false 400).map (·.df) = [400] := by decide

/-- The damper's modes behind the closing time. -/
theorem witness_TravelMovesTheSightingAndTheRecords_modes : ∀ m ∈ [RampMode.linear, .eased, .off],
    let s := { station .inlet .running with cfg := { cfg with damper := { cfg.damper with mode := m } } }
    s.cfg.damper.mode = m ∧ s.startup.role = .inlet ∧ s.startup.station ≠ .loading := by decide

/-- Three records in their order, two of them at one distance. -/
def ranked : List PlumeRecord :=
  [{ record 0 9 .approaching with df := 6 }, record 1 9 .approaching, { record 2 9 .approaching with created := 1 }]

theorem witness_TravelMovesTheSightingAndTheRecords_order :
    RecordsOrdered (tracking ranked (station .inlet .running)) ∧
      ¬ RecordsOrdered (tracking ranked.reverse (station .inlet .running)) := by
  unfold RecordsOrdered
  decide

/-! ## Peers -/

theorem witness_StatusTakenByThePeerTable :
    (∀ b ∈ [0x21, 0x20, 0x01, 0x22, 0x23],
      Delivered (receiving (frame 6 0 4 [b, 0, 0, 80, 255, 255, 0, 10]) (station .inlet .running)) 6
        (frame 6 0 4 [b, 0, 0, 80, 255, 255, 0, 10]) []) ∧
    (frame 6 0 4 []).station ≠ (station .inlet .running).startup.own ∧
    ((frame 6 0 4 [0x21]).byte 0 % 4 ≠ 0 ∧ (frame 6 0 4 [0x21]).byte 0 / 16 % 4 ≠ 0) ∧
    ¬ ((frame 6 0 4 [0x20]).byte 0 % 4 ≠ 0 ∧ (frame 6 0 4 [0x20]).byte 0 / 16 % 4 ≠ 0) ∧
    ¬ ((frame 6 0 4 [0x01]).byte 0 % 4 ≠ 0 ∧ (frame 6 0 4 [0x01]).byte 0 / 16 % 4 ≠ 0) ∧
    (hearing 4 (.present (peer .cabin)) (station .inlet .running)).peers[(4 : Fin 8)].presence = .present (peer .cabin) ∧
    (peer .cabin).role ≠ .forward ∧
    ((station .inlet .running).cabinPeer = none ∧
      (after .statusTaken (receiving (frame 6 0 4 [0x23, 0, 0, 80, 255, 255, 0, 10]) (station .inlet .running))).cabinPeer =
        some 4) ∧
    (after .statusTaken (receiving (frame 6 0 4 [0x21, 0, 0, 80, 255, 255, 0, 10]) (station .inlet .running))).cabinPeer =
      none := by
  have h : ∀ b ∈ [0x21, 0x20, 0x01, 0x22, 0x23],
      headIs (receiving (frame 6 0 4 [b, 0, 0, 80, 255, 255, 0, 10]) (station .inlet .running)) 6
        (frame 6 0 4 [b, 0, 0, 80, 255, 255, 0, 10]) [] = true := by decide
  exact ⟨fun b m => delivered_of_headIs (h b m), by decide⟩

/-- A reading of a kind code, fresh. -/
def reading (k : Kind) : Reading :=
  { kind := k, location := .cabin, quality := .good, value := 900, burden := some 450, ageMs := 0, stale := false }

theorem witness_ReadingTakenByThePeerTable :
    (∀ b ∈ [0x32, 0x37, 0x3A, 0xA2, 0x82],
      Delivered (receiving (frame 7 2 4 [b, 3, 132, 1, 194]) (station .inlet .running)) 7
        (frame 7 2 4 [b, 3, 132, 1, 194]) []) ∧
    (∀ i, (station .inlet .running).peers[(frame 7 2 4 []).station].presence ≠ .present i) ∧
    (hearing 4 (.present (peer .cabin)) (station .inlet .running)).peers[(frame 7 2 4 []).station].presence =
      .present (peer .cabin) ∧
    (hearing 4 (.present (peer .cabin)) (station .inlet .running)).cabinPeer = some (frame 7 2 4 []).station ∧
    (0x32 % 8 = 2 ∧ 0x32 / 8 % 4 = 2 ∧ 0x30 % 8 ≠ 2 ∧ 0x2A / 8 % 4 ≠ 2) ∧
    (0x32 % 8 ≤ 6 ∧ 0x32 / 8 % 4 ≤ 2 ∧ 0x32 / 32 ≤ 4) ∧ ¬ (0x37 % 8 ≤ 6 ∧ 0x37 / 8 % 4 ≤ 2 ∧ 0x37 / 32 ≤ 4) ∧
    ¬ (0x3A % 8 ≤ 6 ∧ 0x3A / 8 % 4 ≤ 2 ∧ 0x3A / 32 ≤ 4) ∧ ¬ (0xA2 % 8 ≤ 6 ∧ 0xA2 / 8 % 4 ≤ 2 ∧ 0xA2 / 32 ≤ 4) ∧
    ([reading .co2].any (·.hasKey .co2 .cabin) = true ∧ [reading .pm].any (·.hasKey .co2 .cabin) = false ∧
      (List.replicate 8 (reading .pm)).any (·.hasKey .co2 .cabin) = false ∧ 8 ≤ (List.replicate 8 (reading .pm)).length) := by
  have h : ∀ b ∈ [0x32, 0x37, 0x3A, 0xA2, 0x82],
      headIs (receiving (frame 7 2 4 [b, 3, 132, 1, 194]) (station .inlet .running)) 7
        (frame 7 2 4 [b, 3, 132, 1, 194]) [] = true := by decide
  refine ⟨fun b m => delivered_of_headIs (h b m), ?_, by decide⟩
  intro i k
  cases k

/-- A CABIN peer with its last status time and one (CO2, CABIN) reading of an age. -/
def aged (status reading_ : Nat) : PeerInfo :=
  { peer .cabin with lastStatusMs := status, readings := [{ reading .co2 with ageMs := reading_ }] }

theorem witness_StalenessAndSilence :
    (∀ t ∈ [2999, 3000], ∀ a ∈ [1999, 2000],
      (hearing 4 (.present (aged t a)) (station .inlet .running)).peers[(4 : Fin 8)].presence = .present (aged t a)) ∧
    (station .inlet .running).cfg.staleTimeMs * (station .inlet .running).stretch.peer.factor = 2000 ∧
    3 * (aged 0 0).intervalMs * (station .inlet .running).stretch.peer.factor = 3000 ∧
    (hearing 4 (.present (aged 3000 0)) (station .inlet .running)).cabinPeer = some 4 ∧
    (station .inlet .running).startup.role = .inlet ∧ (station .inlet .running).startup.station ≠ .loading ∧
    (∀ i, (hearing 4 (.silent (peer .cabin)) (station .inlet .running)).peers[(4 : Fin 8)].presence ≠ .present i) := by
  refine ⟨by decide, by decide, by decide, by decide, by decide, by decide, ?_⟩
  intro i h
  cases h

/-- R28 and R33 at their limits: at 3000 ms the entry is SILENT, at 2999 ms PRESENT; at 2000 ms the record is unknown. -/
theorem test_limits_are_compared :
    (after (.silenceLimitReached 4) (hearing 4 (.present (aged 3000 0)) (station .inlet .running))).flag .peerLost = true ∧
    (after (.silenceLimitReached 4) (hearing 4 (.present (aged 2999 0)) (station .inlet .running))).flag .peerLost = false ∧
    (after (.readingStale 4 .co2 .cabin) (hearing 4 (.present (aged 0 2000)) (station .inlet .running))).peerValue 4 .co2 .cabin =
      none ∧
    (after (.readingStale 4 .co2 .cabin) (hearing 4 (.present (aged 0 1999)) (station .inlet .running))).peerValue 4 .co2 .cabin =
      some 900 := by decide

theorem witness_PeerReadingIsKnownUnderFiveConditions :
    (hearing 4 (.present { peer .cabin with readings := [reading .co2] }) (station .inlet .running)).peerValue 4 .co2 .cabin =
      some 900 := by decide

/-! ## Detector and timeline -/

/-- A FORWARD in RUNNING with its detector in a state, and slot 0 at a value over a baseline of 100. -/
def sensing (d : DetectorState) (value : Nat) : State :=
  { station .forward .running with
    detector := { resetDetector with
      state := d, update := some 0, maxOpen := some 0, baselines := tabulate fun _ => { value := 100, seeded := true } }
    sequencer := { resetSequencer cfg with
      records := tabulate fun _ => { resetRecord cfg 0 with quality := .good, seeded := true, value := value } } }

theorem witness_SweepEndTakesOneDetectorTransition :
    ∀ d ∈ [DetectorState.clear, .pending, .opened, .closing],
      (∀ v ∈ [114, 115, 129, 130], (sensing d v).startup.role = .forward ∧ (sensing d v).startup.station = .running ∧
        (sensing d v).detector.state = d ∧ ((sensing d v).frames .sight).length < 4 ∧ (sensing d v).detector.dsf < 65536 ∧
        (sensing d v).detector.sequence < 256) ∧
      (sensing d 130).excessBurden 0 = 300 ∧ (sensing d 129).excessBurden 0 = 290 ∧ (sensing d 115).excessBurden 0 = 150 ∧
      (sensing d 114).excessBurden 0 = 140 ∧ (sensing d 130).watched 0 = true := by decide

theorem witness_UpdateAndMaxOpenTimersExpire : (sensing .opened 0).detector.update.isSome = true ∧
    (sensing .opened 0).detector.maxOpen.isSome = true ∧ (sensing .opened 0).startup.station ≠ .conflict ∧
    ((sensing .opened 0).frames .sight).length < 4 ∧ (sensing .opened 0).detector.dsf < 65536 ∧
    (sensing .opened 0).detector.peak < 65536 ∧ (sensing .opened 0).detector.sequence < 256 := by decide

/-- A SIGHT of a phase and species byte from station 0, sequence 9, at Dsf 3. -/
def sight (head : Nat) : Frame := frame 3 9 0 [head, 9, 1, 244, 0, 3, 0, 40]

/-- An INLET with that SIGHT at the head of its queue and these records. -/
def sighting (head : Nat) (rs : List PlumeRecord) : State := receiving (sight head) (tracking rs (station .inlet .running))

theorem witness_SightRefinesAHeldRecord :
    (∀ h ∈ [0x10, 0x11, 0x14, 0x15, 0x12, 0x01], Delivered (sighting h [record 0 9 .armed]) 3 (sight h) []) ∧
    (∀ h ∈ [0x11, 0x12, 0x13, 0x14], 1 ≤ (sight h).byte 0 % 8 ∧ (sight h).byte 0 % 8 ≤ 4 ∧
      ((sight h).byte 0).testBit 4 = true) ∧
    ((sight 0x10).byte 0 % 8 < 1 ∧ 4 < (sight 0x15).byte 0 % 8) ∧
    cfg.timeline.geometry[(station .inlet .running).startup.own] ≠ none ∧ cfg.timeline.geometry[(sight 0).station] ≠ none ∧
    cfg.timeline.geometry[(7 : Fin 8)] = none ∧
    (((sight 0x01).byte 0).testBit 4 = false ∧ ((sight 0x01).byte 0).testBit 5 = false) ∧
    (sighting 0x11 [record 0 9 .armed]).findRecord (sight 0x11).station ((sight 0x11).byte 1) = some (record 0 9 .armed) ∧
    (sighting 0x11 []).startup.role = .inlet ∧ (station .cabin .running).startup.role ≠ .inlet := by
  have h : ∀ h ∈ [0x10, 0x11, 0x14, 0x15, 0x12, 0x01],
      headIs (sighting h [record 0 9 .armed]) 3 (sight h) [] = true := by decide
  exact ⟨fun b m => delivered_of_headIs (h b m), by decide⟩

/-- Twelve records, the last of them APPROACHING with a peak. -/
def fullTimeline (peak : Nat) : List PlumeRecord :=
  (List.range 11).map (fun n => record 1 n .armed) ++ [{ record 1 11 .approaching with peak := peak }]

theorem witness_SightCreatesARecord :
    (∀ h ∈ [0x11, 0x14], ∀ p ∈ [499, 500], Delivered (sighting h (fullTimeline p)) 3 (sight h) [] ∧
      Delivered (sighting h []) 3 (sight h) []) ∧
    cfg.timeline.geometry[(station .inlet .running).startup.own] = some 20 ∧
    cfg.timeline.geometry[(sight 0x11).station] = some 0 ∧
    (sighting 0x11 (fullTimeline 499)).findRecord (sight 0x11).station ((sight 0x11).byte 1) = none ∧
    (sighting 0x11 []).timeline.records.length < 12 ∧ (fullTimeline 499).length = 12 ∧
    min 4000 ((sight 0x11).word 2) = 500 ∧
    (∀ w ∈ fullTimeline 499, w.phase = .approaching → w = { record 1 11 .approaching with peak := 499 }) ∧
    (∀ w ∈ fullTimeline 500, w.phase = .approaching → 500 ≤ w.peak) := by
  have h : ∀ h ∈ [0x11, 0x14], ∀ p ∈ [499, 500], headIs (sighting h (fullTimeline p)) 3 (sight h) [] = true := by decide
  have k : ∀ h ∈ [0x11, 0x14], headIs (sighting h []) 3 (sight h) [] = true := by decide
  exact ⟨fun b m p n => ⟨delivered_of_headIs (h b m p n), delivered_of_headIs (k b m)⟩, by decide⟩

theorem witness_SightCreatesARecord_order : RecordsOrdered (sighting 0x11 (fullTimeline 499)) := by
  unfold RecordsOrdered
  decide

/-- An INLET with a PLUME state and these records. -/
def holding (h : PlumeHold) (rs : List PlumeRecord) : State :=
  let s := tracking rs (station .inlet .running)
  { s with timeline := { s.timeline with hold := h, postHold := some 0 } }

theorem witness_PlumeDemandFollowsTheRecords : ∀ h ∈ [PlumeHold.off, .held, .postHold],
    (holding h []).timeline.hold = h ∧ (holding h []).plumeCount = 0 ∧ 0 < (holding h [record 0 9 .armed]).plumeCount ∧
    (holding h []).demands.entries.length < 16 ∧ (holding h []).demands.holds (holding h []).startup.own 0 = false ∧
    (holding h []).startup.role = .inlet ∧ (holding h []).startup.station ≠ .loading ∧ 0 < cfg.timeline.postHoldS := by
  decide

/-- A record in a phase, with its age and its engulf time. -/
def capped (p : PlumePhase) (age : Nat) (engulf : Option Nat) : PlumeRecord :=
  { record 0 9 p with ageMs := age, engulfMs := engulf }

theorem witness_CapsAndPostHoldExpire :
    (∀ p ∈ [PlumePhase.approaching, .armed, .engulfed], ∀ a ∈ [14999, 15000], ∀ m ∈ [119999, 120000],
      (holding .postHold [capped p a (some m)]).findRecord 0 (9 : Fin 256).val = some (capped p a (some m))) ∧
    cfg.timeline.approachCapS * 1000 = 15000 ∧ cfg.timeline.engulfCapS * 1000 = 120000 ∧
    (holding .postHold []).timeline.hold = .postHold ∧ (holding .postHold []).timeline.postHold.isSome = true ∧
    (holding .postHold []).startup.role = .inlet ∧ (holding .postHold []).startup.station ≠ .loading := by decide

/-- R83 and R85 at their caps. -/
theorem test_caps_are_compared :
    (after (.approachCapExpiry 0 9) (holding .off [capped .approaching 15000 none])).timeline.records.map (·.phase) =
      [.engulfed] ∧
    (after (.approachCapExpiry 0 9) (holding .off [capped .approaching 14999 none])).timeline.records.map (·.phase) =
      [.approaching] ∧
    (after (.engulfCapExpiry 0 9) (holding .held [capped .engulfed 0 (some 120000)])).timeline.records = [] ∧
    (after (.engulfCapExpiry 0 9) (holding .held [capped .engulfed 0 (some 119999)])).timeline.records.length = 1 := by decide

/-! ## Demands, safe-source set, emitters -/

theorem witness_InsertionKeepsTheListOrder :
    [entry 4 2 5 0, entry 4 3 5 1, entry 5 2 1 2].Pairwise (fun a b => b.level ≤ a.level) ∧
      ({ entries := [], nextStamp := 65535 } : DemandList).nextStamp = 65535 ∧
      ({ entries := [], nextStamp := 65534 } : DemandList).nextStamp ≠ 65535 := by decide

/-- A DEMAND of a source, regime, level and hold from station 4. -/
def demand (source regime level hold : Nat) : Frame := frame 5 source 4 [regime, level, hold]

theorem witness_DemandTakenByTheDemandList :
    (∀ x ∈ [(5, 1, 1, 1), (2, 1, 8, 1), (2, 0, 1, 1), (2, 4, 1, 1), (2, 1, 1, 0), (2, 1, 0, 0), (2, 1, 1, 1), (2, 3, 7, 255)],
      Delivered (receiving (demand x.1 x.2.1 x.2.2.1 x.2.2.2) (station .inlet .running)) 5
        (demand x.1 x.2.1 x.2.2.1 x.2.2.2) []) ∧
    (demand 5 1 1 1).index = 5 ∧ 7 < (demand 2 1 8 1).byte 1 ∧ (demand 2 0 1 1).byte 0 < 1 ∧ 3 < (demand 2 4 1 1).byte 0 ∧
    (demand 2 1 1 0).byte 2 = 0 ∧ (demand 2 1 0 0).byte 1 = 0 ∧ 1 ≤ (demand 2 1 1 1).byte 1 ∧
    demandRegimeCode .recirc = (demand 2 1 1 1).byte 0 ∧
    (demanding [entry 4 2 1 0] (station .inlet .running)).demands.find 4 2 = some (entry 4 2 1 0) ∧
    (entry 4 2 1 0).level = (demand 2 1 1 1).byte 1 ∧ (entry 4 2 1 0).level ≠ (demand 2 1 2 1).byte 1 ∧
    (∀ x ∈ fullList, ¬ (x.station = 4 ∧ x.source = 2)) ∧ fullList.length = 16 ∧
    (∀ w ∈ fullList, w.hold.isSome = true → w = entry 6 0 1 15 ∨ (entry 6 0 1 15).level < w.level) ∧
    entry 6 0 1 15 ∈ fullList ∧ (entry 6 0 1 15).level < (demand 2 1 2 1).byte 1 ∧
    (∀ w ∈ fullList, w.hold.isSome = true → (demand 2 1 1 1).byte 1 ≤ w.level) ∧
    (hearing 4 (.silent (peer .cabin)) (station .inlet .running)).peers[(demand 2 1 1 1).station].presence =
      .silent (peer .cabin) := by
  have h : ∀ x ∈ [(5, 1, 1, 1), (2, 1, 8, 1), (2, 0, 1, 1), (2, 4, 1, 1), (2, 1, 1, 0), (2, 1, 0, 0), (2, 1, 1, 1),
      (2, 3, 7, 255)], headIs (receiving (demand x.1 x.2.1 x.2.2.1 x.2.2.2) (station .inlet .running)) 5
        (demand x.1 x.2.1 x.2.2.1 x.2.2.2) [] = true := by decide
  exact ⟨fun x m => delivered_of_headIs (h x m), by decide⟩

/-- A SAFE of reasons and a hold from station 4. -/
def safe (reasons hold : Nat) : Frame := frame 1 0 4 [reasons, hold]

theorem witness_SafeTakenByTheSafeSourceSet :
    (∀ h ∈ [0, 1, 255], Delivered (receiving (safe 1 h) (station .inlet .running)) 1 (safe 1 h) []) ∧
    (∀ i, (station .inlet .running).peers[(safe 1 1).station].presence ≠ .silent i) ∧
    (hearing 4 (.silent (peer .cabin)) (station .inlet .running)).peers[(safe 1 1).station].presence =
      .silent (peer .cabin) ∧
    (safe 1 0).byte 1 = 0 ∧ 1 ≤ (safe 1 1).byte 1 ∧ (station .inlet .running).safe.nonempty = false ∧
    (station .inlet .running).cfg.safeJump = true ∧ (station .cabin .running).startup.role ≠ .inlet := by
  have h : ∀ h ∈ [0, 1, 255], headIs (receiving (safe 1 h) (station .inlet .running)) 1 (safe 1 h) [] = true := by decide
  refine ⟨fun b m => delivered_of_headIs (h b m), ?_, by decide⟩
  intro i k
  cases k

/-- An INLET with a SAFE member of station 4 and an entry of it. -/
def guarded : State :=
  let s := demanding [entry 4 2 1 0] (station .inlet .running)
  { s with safe := { s.safe with remote := s.safe.remote.set 4 (some { force := true, rule := false, holdMs := 0 }) } }

theorem witness_HoldsRunOut : guarded.demands.find 4 2 = some (entry 4 2 1 0) ∧ (entry 4 2 1 0).hold.isSome = true ∧
    guarded.demands.find 4 3 = none ∧ guarded.safe.remote[(4 : Fin 8)].isSome = true ∧
    guarded.safe.remote[(3 : Fin 8)] = none ∧ guarded.startup.role = .inlet ∧ guarded.startup.station ≠ .loading ∧
    (after (.safeHoldExpiry 4) guarded).safe.nonempty = false := by decide

/-- Events that take an INLET to another regime. -/
theorem witness_TargetsAreHandedWhenTheRegimeDiffers :
    ((after .demandTaken (receiving (demand 2 1 1 1) (station .inlet .running))).regime = .recirc ∧
      (station .inlet .running).regime = .auto) ∧
    (let s := { demanding [entry 4 2 1 0] (station .inlet .running) with regime := .flush }
     s.regime ≠ (after (.demandHoldExpiry 4 2) s).regime) ∧
    (let s := { demanding [localEntry 0 4] (holding .postHold []) with regime := .recirc }
     s.regime ≠ (after .postHoldExpiry s).regime) := by decide

/-- A CABIN with its emitters HELD and its scrub running, their timers run out, its burden as given. -/
def scrubbing (burden : Nat) : State :=
  { station .cabin .running with
    cfg := { cfg with slots := tabulate fun _ => { slotCfg with location := .cabin } }
    emitters := { demand := tabulate fun _ => { held := true, timer := some 0 }, safe := { held := true, timer := some 0 } }
    scrub := { active := true, timer := some 0, check := some 0 }
    sequencer := { resetSequencer cfg with
      records := tabulate fun _ => { resetRecord cfg 0 with quality := .good, seeded := true, burden := some burden } } }

theorem witness_EmitterAndScrubTimersExpire :
    (∀ n ∈ [(1 : Fin 16), 2, 3, 8, 15], (emitterDemand (scrubbing 0).cfg n).isSome = true) ∧
    (scrubbing 0).emitters.demand[(1 : Fin 16)].held = true ∧ (scrubbing 0).emitters.demand[(1 : Fin 16)].timer.isSome = true ∧
    (scrubbing 0).emitters.safe.held = true ∧ (scrubbing 0).emitters.safe.timer.isSome = true ∧
    (station .cabin .running).emitters.demand[(1 : Fin 16)].held = false ∧
    (station .cabin .running).emitters.safe.held = false ∧ (scrubbing 0).scrub.active = true ∧
    (scrubbing 0).scrub.timer.isSome = true ∧ (scrubbing 0).scrub.check.isSome = true ∧
    (scrubbing 300).combinedBurden = some 300 ∧ 300 ≤ (scrubbing 300).cfg.targetBurden ∧
    (scrubbing 301).combinedBurden = some 301 ∧ ¬ 301 ≤ (scrubbing 301).cfg.targetBurden ∧
    (scrubbing 0).startup.station ≠ .conflict := by decide

/-! ## Mix law, ramps, accounting, rules -/

/-- An INLET that hears a CABIN with this CO2, and measures this burden outside. -/
def mixing (regime : Regime) (co2 burden : Nat) : State :=
  { hearing 4 (.present { peer .cabin with readings := [{ reading .co2 with value := co2 }] }) (station .inlet .running) with
    regime := regime
    sequencer := { resetSequencer cfg with
      records := tabulate fun _ => { resetRecord cfg 0 with quality := .good, seeded := true, burden := some burden } } }

theorem witness_MixLawFormulas :
    (∀ c ∈ [800, 801, 1399, 1400], (mixing .auto c 420).cabinReading .co2 = some c) ∧
    (∀ b ∈ [420, 421], (mixing .auto 800 b).combinedBurden = some b) ∧ (mixing .auto 800 0).cabinBurden.getD 300 = 420 ∧
    (station .inlet .running).cabinReading .co2 = none ∧ (station .inlet .running).combinedBurden = none ∧
    (mixing .auto 1010 1850).fullComputation.recirc = 650 ∧ (mixing .auto 1100 1850).fullComputation.recirc = 500 ∧
    (mixing .auto 1400 1850).fullComputation.recirc = 0 ∧ (mixing .auto 800 1850).fullComputation.recirc = 1000 ∧
    cfg.mix.co2Low < cfg.mix.co2High ∧ cfg.mix.table.b0.r = 0 ∧ cfg.mix.table.b0.r < cfg.mix.table.b1.r ∧
    cfg.mix.table.b1.r < cfg.mix.table.b2.r ∧ cfg.mix.table.b2.r < cfg.mix.table.b3.r ∧
    cfg.mix.table.b3.r < cfg.mix.table.b4.r ∧ cfg.mix.table.b2.r < 650 ∧ 650 ≤ cfg.mix.table.b3.r := by decide

theorem witness_MixLawFormulas_inputs :
    ((mixing .auto 800 420).cabinPeer = some 4 ∧
      (mixing .auto 800 420).peers[(4 : Fin 8)].presence =
        .present { peer .cabin with readings := [{ reading .co2 with value := 800 }] }) ∧
    (station .inlet .running).cabinPeer = none ∧ (scrubbing 300).startup.role = .cabin ∧
    (scrubbing 300).cfg.slots[(0 : Fin 16)].location = .cabin ∧ (mixing .auto 800 420).cfg.slots[(0 : Fin 16)].location = .outside ∧
    (mixing .auto 800 420).sequencer.records[(0 : Fin 16)].burden = some 420 ∧
    (station .inlet .running).sequencer.records[(0 : Fin 16)].burden = none := by decide

theorem witness_ComputationByTheActiveRegime :
    ∀ r ∈ [Regime.auto, .recirc, .flush, .scrub, .safe, .idle],
      (mixing r 1010 1850).startup.role = .inlet ∧ (mixing r 1010 1850).startup.station = .running ∧
      (mixing r 1010 1850).regime = r ∧ (mixing r 1010 1850).mix.damper ≠ (mixing r 1010 1850).fullComputation.damper ∧
      (station .cabin .running).startup.role ≠ .inlet ∧ (station .inlet .joining).startup.station ≠ .running := by decide

/-- A channel at 400 on its way to 940. -/
def moving : Channel :=
  { moving := true, output := 400, target := 940, origin := 80, length := 860, timer := some 0 }

theorem witness_TargetIsTakenByModeAndState : resetChannel.sound ∧ moving.sound ∧
    (resetChannel.moving = false ∧ resetChannel.output = 0) ∧ (moving.moving = true ∧ moving.output = 400) ∧
    RampMode.off ≠ RampMode.linear := by
  refine ⟨⟨by decide, by decide⟩, ⟨by decide, by decide⟩, by decide⟩

/-- The damper of an INLET after a target: the channel it was, its mode and the target. -/
def targeted (mode : RampMode) (c : Channel) (target : Nat) : Channel :=
  let s := { station .inlet .running with
    cfg := { cfg with damper := { cfg.damper with mode := mode } }
    ramps := { damper := c, blower := c, settle := some 7, settled := true } }
  (s.takeTarget .damper target).ramps.damper

theorem witness_TargetIsTakenByModeAndState_outcomes :
    ((targeted .linear resetChannel 80).moving = true ∧ (targeted .linear resetChannel 0) = resetChannel) ∧
    ((targeted .linear moving 400).moving = false ∧ (targeted .linear moving 80).moving = true) ∧
    ((targeted .off resetChannel 80).moving = false ∧ (targeted .off resetChannel 80).output ≠ resetChannel.output) ∧
    ((targeted .off moving 80).moving = false ∧ (targeted .off moving 80).output ≠ moving.output) ∧
    (station .inlet .running).startup.role = .inlet ∧ (station .cabin .running).startup.role ≠ .inlet := by decide

/-- An INLET with both channels moving, its settle timer run out, and its feedback slot 1 at a value. -/
def ramping (c : Channel) (feedback : Nat) : State :=
  { station .inlet .running with
    ramps := { damper := c, blower := c, settle := some 0, settled := false }
    sequencer := { resetSequencer cfg with
      records := tabulate fun _ => { resetRecord cfg 0 with quality := .good, value := feedback } } }

theorem witness_IntervalAndSettleTimersExpire :
    (∀ n ∈ [RampName.damper, .blower], ∀ c ∈ [moving, { moving with target := 401 }, { moving with target := 399 }],
      ((ramping c 0).ramps.channel n).moving = true ∧ ((ramping c 0).ramps.channel n).timer.isSome = true ∧
      (rampCfg (ramping c 0).cfg n).mode ≠ .off) ∧
    (rampCfg cfg .damper).mode = .linear ∧ (rampCfg cfg .blower).mode = .eased ∧
    (∀ v ∈ [40, 41], (ramping resetChannel v).ramps.settle.isSome = true ∧ (ramping resetChannel v).startup.role = .inlet ∧
      (ramping resetChannel v).ramps.damper.moving = false ∧ (ramping resetChannel v).cfg.feedbackSlot = some 1 ∧
      (ramping resetChannel v).sequencer.records[(1 : Fin 16)].quality = .good) ∧
    ((ramping resetChannel 0).ramps.channel .damper).moving = false := by decide

/-- A station in RUNNING whose slots measure at a location, with one burden and value, its second run out. -/
def counting (role : Role) (l : Location) (burden : Nat) : State :=
  { station role .running with
    cfg := { cfg with slots := tabulate fun i => { slotCfg with location := l, kind := if i = 0 then .pm else .no2 } }
    accounting := { resetAccounting with timer := some 0 }
    sequencer := { resetSequencer cfg with
      records := tabulate fun _ => { resetRecord cfg 0 with
        quality := .good, seeded := true, value := burden, burden := some burden } } }

theorem witness_AccountingSecondByRole :
    (∀ b ∈ [0, 249, 250, 499, 500, 999, 1000, 1999, 2000, 4000],
      (counting .cabin .cabin b).accounting.timer.isSome = true ∧ (counting .cabin .cabin b).startup.role = .cabin ∧
      ((counting .cabin .cabin b).firstSlot .pm .cabin).bind (counting .cabin .cabin b).slotBurden = some b ∧
      ((counting .cabin .cabin b).firstSlot .co2 .cabin).bind (counting .cabin .cabin b).slotBurden = none) ∧
    (counting .inlet .outside 95).startup.role = .inlet ∧
    ((counting .inlet .outside 95).firstSlot .pm .outside).bind (counting .inlet .outside 95).slotValue = some 95 ∧
    ((counting .inlet .cabin 95).firstSlot .pm .outside).bind (counting .inlet .cabin 95).slotValue = none ∧
    (counting .forward .outside 0).startup.role = .forward ∧ (door true true false).anyDoorOpen = true ∧
    (door false false false).anyDoorOpen = false := by decide

/-- A station whose slots read a value, with one rule's state. -/
def ruled (value : Nat) (r : RuleState) : State :=
  { counting .inlet .outside value with rules := tabulate fun _ => r }

theorem witness_RulesCompareAndAdvance :
    (∀ f : Bool, ∀ k ∈ [0, 1], ∀ v ∈ [79, 80, 99, 100],
      let s := ruled v { firing := f, fireTally := k, releaseTally := k }
      s.cfg.rules[(0 : Fin 8)].enabled = true ∧ s.operandValue s.cfg.rules[(0 : Fin 8)].operandA = some v ∧
      s.comparandValue s.cfg.rules[(0 : Fin 8)].comparand = some 100 ∧ s.rules[(0 : Fin 8)].firing = f) ∧
    relationHolds .ge false 20 100 100 = true ∧ relationHolds .ge false 20 99 100 = false ∧
    relationHolds .ge true 20 80 100 = true ∧ relationHolds .ge true 20 79 100 = false ∧
    (1 + 1 = cfg.rules[(0 : Fin 8)].fireCount ∧ 0 + 1 < cfg.rules[(0 : Fin 8)].fireCount) ∧
    (1 + 1 = cfg.rules[(0 : Fin 8)].releaseCount ∧ 0 + 1 < cfg.rules[(0 : Fin 8)].releaseCount) ∧
    cfg.rules[(7 : Fin 8)].enabled = false ∧
    (station .inlet .running).operandValue cfg.rules[(0 : Fin 8)].operandA = none := by decide

theorem witness_RulesCompareAndAdvance_actions :
    ∀ a ∈ [RuleAction.none, .safe, .demand .recirc 1, .demand .flush 7], ∀ r ∈ [Role.inlet, .cabin], ∀ f held : Bool,
      let s := acting a f (emitting held (members false f { station r .running with
        sequencer := (ruled (if f then 79 else 100) { firing := f, fireTally := 1, releaseTally := 1 }).sequencer }))
      s.cfg.rules[(0 : Fin 8)].enabled = true ∧ s.cfg.rules[(0 : Fin 8)].action = a ∧ s.rules[(0 : Fin 8)].firing = f ∧
      s.operandValue s.cfg.rules[(0 : Fin 8)].operandA = some (if f then 79 else 100) ∧
      s.comparandValue s.cfg.rules[(0 : Fin 8)].comparand = some 100 ∧
      (s.evaluateRule 0).rules[(0 : Fin 8)].firing = !f ∧ s.startup.role = r ∧ s.startup.station = .running ∧
      s.emitters.demand[(8 : Fin 16)].held = held ∧ s.emitters.safe.held = held := by decide

/-! ## The link -/

/-- A SIGHT content of a phase and a sequence. -/
def sightOf (phase sequence : Nat) : Frame := frame 3 (sequence % 16) 2 [phase, sequence, 0, 0, 0, 0, 0, 0]

/-- The state with these frames in the SIGHT FIFO. -/
def sights (l : List Frame) (s : State) : State :=
  { s with transmit := { s.transmit with boxes := { s.transmit.boxes with sight := l.map freshHeld } } }

/-- The state with this many answers in the ANSWER FIFO. -/
def answering (n : Nat) (s : State) : State :=
  { s with transmit := { s.transmit with
      boxes := { s.transmit.boxes with answer := List.replicate n (freshHeld (frame 9 0 2 [0, 0, 1, 0, 0, 0, 0, 0])) } } }

theorem witness_ContentTakesItsPlaceInItsMailbox :
    (station .forward .conflict).startup.station = .conflict ∧ (station .forward .running).startup.station ≠ .conflict ∧
    (station .forward .running).frames .travel = [] ∧ (after .statusTimerExpiry { station .forward .running with
      link := { resetLinkState with status := some 0 } }).frames .status ≠ [] ∧
    ((sights [sightOf 1 1, sightOf 2 1, sightOf 3 1] (station .forward .running)).frames .sight).length < 4 ∧
    4 ≤ ((sights [sightOf 1 1, sightOf 2 1, sightOf 3 1, sightOf 1 2] (station .forward .running)).frames .sight).length ∧
    (sightOf 2 1).byte 0 % 8 = 2 ∧ (sightOf 1 1).byte 0 % 8 ≠ 2 ∧ (sightOf 2 1).byte 1 ≠ (sightOf 2 2).byte 1 ∧
    ((answering 15 State.reset).frames .answer).length < 16 ∧ 16 ≤ ((answering 16 State.reset).frames .answer).length := by
  decide

theorem witness_TheLowestIdentifierIsOffered :
    (station .forward .running).transmit.offer = none ∧ (station .forward .running).offerable = [] ∧
    (after .guardExpiry (station .forward .running)).transmit.offer = none ∧
    (answering 1 (station .forward .running)).offerable = [(.answer, freshHeld (frame 9 0 2 [0, 0, 1, 0, 0, 0, 0, 0]))] ∧
    (answering 1 (station .forward .running)).transmit.offer = none := by decide

/-- A station with a STATUS or a HUSH on offer, in a link state with a score. -/
def offering (kind : Nat) (l : LinkState) (score : Nat) : State :=
  let f := frame kind 0 2 [0, 0]
  let s := station .forward .running
  { s with
    link := { s.link with state := l, score := score, withdrawal := some 0 }
    transmit := { s.transmit with
      boxes := { s.transmit.boxes with status := some { frame := f, offered := true, acceptsReset := false } }
      offer := some f } }

/-- The ACCEPTED frame of a RESET ALL on offer. -/
def accepting : State :=
  let f := frame 9 0 2 [0, 0, 1, 0, 0, 0, 0, 0]
  let s := station .forward .running
  { s with transmit := { s.transmit with
      boxes := { s.transmit.boxes with answer := [{ frame := f, offered := true, acceptsReset := true }] }
      offer := some f } }

/-- That station with the outcomes of two frames still to come, in a station state. -/
def abandoning (st : Station) (s : State) : State :=
  { s with
    startup := { s.startup with station := st }
    transmit := { s.transmit with abandoned := [frame 2 0 2 [0, 0], frame 6 0 2 [0, 0]] } }

/-- R163: in LOADING the outcome of an abandoned frame leaves the flags and the link state, and the score rises. -/
theorem test_outcome_in_loading :
    (after .failed (abandoning .loading (offering 6 .active 255))).flag .linkWithdrawn = false ∧
    (after .failed (abandoning .loading (offering 6 .active 90))).link.score = 98 ∧
    (after .failed (abandoning .loading (offering 6 .active 90))).link.state = .active ∧
    (after .failed (abandoning .running (offering 6 .active 90))).flag .linkPassive = true := by decide

theorem witness_SentRemovesTheFrame :
    (∀ st ∈ [Station.loading, .running], (abandoning st (offering 6 .passive 96)).startup.station = st ∧
      (abandoning st (offering 6 .passive 96)).transmit.abandoned = frame 2 0 2 [0, 0] :: [frame 6 0 2 [0, 0]]) ∧
    (∀ k ∈ [2, 6], ∀ n ∈ [0, 96, 97], (offering k .passive n).transmit.abandoned = [] ∧
      (offering k .passive n).transmit.offer = some (frame k 0 2 [0, 0]) ∧
      (offering k .passive n).transmit.boxes.acceptOffered = false ∧ (offering k .passive n).link.state = .passive) ∧
    96 - 1 < 96 ∧ 96 ≤ 97 - 1 ∧ accepting.transmit.boxes.acceptOffered = true ∧ accepting.transmit.abandoned = [] ∧
    accepting.transmit.offer = some (frame 9 0 2 [0, 0, 1, 0, 0, 0, 0, 0]) ∧
    (after .resetLink (receiving (frame 8 4 0 [2, 0]) (offering 6 .active 0))).transmit.abandoned = [frame 6 0 2 [0, 0]] ∧
    (station .forward .running).transmit.offer = none ∧ (station .forward .running).transmit.abandoned = [] := by decide

theorem witness_LostAndFailedFramesStayUntilAWithdrawal :
    (∀ n ∈ [87, 88, 183, 184, 255], ∀ l ∈ [LinkState.active, .passive, .withdrawn],
      (offering 6 l n).transmit.abandoned = [] ∧ (offering 6 l n).transmit.offer = some (frame 6 0 2 [0, 0]) ∧
      (offering 6 l n).transmit.boxes.acceptOffered = false ∧ (offering 6 l n).transmit.boxes.holdsAccept = false ∧
      (offering 6 l n).link.state = l ∧ (offering 6 l n).link.withdrawal.isSome = true) ∧
    (min 255 (87 + 8) < 96 ∧ 96 ≤ min 255 (88 + 8) ∧ min 255 (183 + 8) < 192 ∧ 192 ≤ min 255 (184 + 8)) ∧
    accepting.transmit.abandoned = [] ∧ accepting.transmit.boxes.acceptOffered = true ∧
    accepting.transmit.boxes.holdsAccept = true ∧ accepting.link.state ≠ .withdrawn ∧
    min 255 (({ accepting with link := { accepting.link with score := 184 } } : State).link.score + 8) = 192 ∧
    (∀ st ∈ [Station.loading, .running],
      (abandoning st (offering 6 .active 184)).startup.station = st ∧
      (abandoning st (offering 6 .active 184)).transmit.boxes.holdsAccept = false ∧
      (abandoning st (offering 6 .active 184)).transmit.abandoned ≠ [] ∧
      (abandoning st accepting).transmit.boxes.holdsAccept = true) ∧
    (station .forward .running).transmit.offer = none ∧ (station .forward .running).transmit.abandoned = [] := by decide

theorem witness_RoutineTimersQueueStatusAndReadings :
    ∀ st ∈ [Station.joining, .running, .conflict],
      let s := { mixing .auto 1010 4000 with
        startup := { (station .inlet st).startup with station := st }
        link := { resetLinkState with status := some 0, reading := some 0 } }
      s.link.status.isSome = true ∧ s.link.reading.isSome = true ∧ inSweep s.cfg 1 = true ∧ inSweep s.cfg 2 = false ∧
      s.cfg.slots[(1 : Fin 16)].publish = true ∧ s.sequencer.records[(1 : Fin 16)].value < 65536 ∧
      s.slotBurden 1 = some 4000 ∧ s.ramps.damper.output < 65536 ∧ (station .inlet st).slotBurden 1 = none := by decide

/-- A station whose receive queue holds SAFE frames and one TRAVEL, with a guard. -/
def queued (safes travels : Nat) (g : Option Guard) : State :=
  { station .inlet .running with
    receive := { queue := List.replicate safes (safe 1 1) ++ List.replicate travels (frame 4 0 4 [0, 0, 0, 0, 0, 0])
                 guard := g } }

theorem witness_ReceivedFrameIsFilteredAndQueued :
    (frame 4 0 4 []).station ≠ (station .inlet .running).startup.own ∧ (station .inlet .running).startup.station ≠ .loading ∧
    (cfg.accept[(0 : Fin 16)].enabled = true ∧
      (frame 4 0 4 []).id &&& cfg.accept[(0 : Fin 16)].mask = cfg.accept[(0 : Fin 16)].value &&& cfg.accept[(0 : Fin 16)].mask) ∧
    (∀ i : Fin 16, ({ cfg with accept := tabulate fun _ => { enabled := false, value := 0, mask := 0 } } : Cfg).accept[i].enabled
      = false) ∧
    (queued 10 0 none).receive.queue.length + 1 < 12 ∧ 12 ≤ (queued 11 0 none).receive.queue.length + 1 ∧
    16 ≤ (queued 15 0 none).receive.queue.length + 1 ∧ (queued 15 0 none).receive.queue.length < 16 ∧
    16 ≤ (queued 15 1 none).receive.queue.length ∧ (safe 1 1).kind = 1 ∧ (frame 4 0 4 []).kind ≠ 1 ∧
    (queued 15 1 none).receive.queue = List.replicate 15 (safe 1 1) ++ frame 4 0 4 [0, 0, 0, 0, 0, 0] :: [] ∧
    (∀ g ∈ (queued 16 0 none).receive.queue, g.kind = 1) ∧ (queued 15 0 (some ⟨false, 5⟩)).receive.guard = some ⟨false, 5⟩ ∧
    (queued 15 0 (some ⟨true, 5⟩)).receive.guard = some ⟨true, 5⟩ := by decide

theorem witness_OwnNumberMakesTheConflict :
    (frame 6 0 2 []).station = (station .inlet .running).startup.own ∧ State.reset.startup.station = .loading ∧
    (∀ r ∈ [Role.inlet, .forward], ∀ st ∈ [Station.joining, .running], (station r st).startup.station = st ∧
      (station r st).startup.role = r ∧ (station r st).transmit.boxes.holdsAccept = false ∧
      (station r st).safe.nonempty = false) ∧
    (station .inlet .conflict).startup.station = .conflict ∧ accepting.transmit.boxes.holdsAccept = true := by decide

/-- A station with both parts of the stretch running out and a guard, hearing station 4. -/
def stretched (lastStatus : Nat) : State :=
  { hearing 4 (.present { peer .cabin with lastStatusMs := lastStatus }) (station .inlet .running) with
    stretch := { peer := { factor := 4, left := some 0 }, interval := { factor := 2, left := some 0 } }
    receive := { queue := [], guard := some ⟨true, 0⟩ } }

theorem witness_HushGuardAndStretch :
    (∀ b ∈ [0, 1, 2, 3, 4, 255], ∀ d ∈ [0, 1, 100, 101],
      Delivered (receiving (frame 2 0 4 [b, d]) (station .inlet .running)) 2 (frame 2 0 4 [b, d]) []) ∧
    (stretched 0).receive.guard.isSome = true ∧ (stretched 0).stretch.interval.left.isSome = true ∧
    (stretched 0).stretch.peer.left.isSome = true ∧ 1 < (stretched 0).stretch.peer.factor ∧
    (stretched 3000).peers[(4 : Fin 8)].presence = .present (peer .cabin) ∧
    3 * (peer .cabin).intervalMs ≤ (peer .cabin).lastStatusMs ∧ 2999 < 3 * (peer .cabin).intervalMs ∧
    (∀ x ∈ [(1999, some 900), (2000, none)], (after .hushTaken (receiving (frame 2 0 4 [2, 20])
      (hearing 4 (.present (aged 0 x.1)) (station .inlet .running)))).peerValue 4 .co2 .cabin = x.2) := by
  have h : ∀ b ∈ [0, 1, 2, 3, 4, 255], ∀ d ∈ [0, 1, 100, 101],
      headIs (receiving (frame 2 0 4 [b, d]) (station .inlet .running)) 2 (frame 2 0 4 [b, d]) [] = true := by decide
  exact ⟨fun b m d n => delivered_of_headIs (h b m d n), by decide⟩

theorem witness_FrameDiscardedByTheDispatcher :
    (∀ k ∈ [0, 1, 2, 8, 9, 10, 15], (receiving (frame k 0 4 []) (station .inlet .running)).receive.queue = frame k 0 4 [] :: [] ∧
      (receiving (frame k 0 4 []) (station .inlet .running)).startup.station ≠ .loading ∧ (frame k 0 4 []).kind = k) ∧
    (frame 1 0 4 [1]).data.length < payloadLength 1 ∧ payloadLength 1 ≤ (safe 1 1).data.length ∧
    (station .cabin .running).startup.role ≠ .inlet ∧ (frame 8 0 4 [3, 0]).byte 0 ≠ (station .cabin .running).startup.own.val := by
  decide

/-! ## Requests -/

/-- A REQUEST of a code and an argument to station 2, from station 0. -/
def request (code argument : Nat) : Frame := frame 8 code 0 [2, argument]

/-- A station with that REQUEST at the head of its queue, its ANSWER FIFO holding some frames. -/
def asked (code argument answers : Nat) (role : Role) : State :=
  receiving (request code argument) (answering answers (station role .running))

theorem asked_at (code argument answers : Nat) (role : Role)
    (h : headAsks (asked code argument answers role) code (request code argument) [] = true) :
    Asked (asked code argument answers role) code (request code argument) [] := asked_of_headAsks h

theorem witness_QueryAnswersWithASnapshot :
    (∀ a ∈ [0, 8, 9, 13], ∀ n ∈ [0, 1, 15, 16], Asked (asked 0 a n .cabin) 0 (request 0 a) [] ∧ (request 0 a).byte 1 ≤ 13) ∧
    (asked 0 8 0 .cabin).frames .answer = [] ∧ (asked 0 8 1 .cabin).frames .answer ≠ [] ∧
    ((asked 0 8 15 .cabin).frames .answer).length < 16 ∧ 16 ≤ ((asked 0 8 16 .cabin).frames .answer).length := by
  have h : ∀ a ∈ [0, 8, 9, 13], ∀ n ∈ [0, 1, 15, 16], headAsks (asked 0 a n .cabin) 0 (request 0 a) [] = true := by decide
  have k : ∀ a ∈ [0, 8, 9, 13], (request 0 a).byte 1 ≤ 13 := by decide
  exact ⟨fun a m n o => ⟨asked_of_headAsks (h a m n o), k a m⟩, by decide⟩

/-- Groups with items and one without; how many rows the groups have. -/
theorem witness_QueryAnswersWithASnapshot_rows :
    (∀ a ∈ [0, 4, 8, 9, 10, 11, 12, 13], (answerRows (asked 0 a 0 .inlet) a).take 16 ≠ []) ∧
    (answerRows (asked 0 10 0 .cabin) 10).take 16 = [] ∧ (answerRows (asked 0 10 0 .forward) 10).take 16 ≠ [] ∧
    (answerRows (tracking ranked (asked 0 10 0 .inlet)) 10).length = 5 ∧
    (answerRows (asked 0 4 0 .inlet) 4).length = 13 ∧ (answerRows (asked 0 12 0 .inlet) 12).length = 11 ∧
    (answerRows (asked 0 9 0 .inlet) 9).length = 14 ∧
    (answerRows (demanding fullList (asked 0 11 0 .inlet)) 11).length = 17 ∧
    (answerRows (asked 0 13 0 .inlet) 13).length = 16 := by decide

theorem witness_ClearsAndLampTestAreCarriedOut :
    (∀ a ∈ [0, 8, 255], ∀ n ∈ [0, 15, 16], Asked (asked 1 a n .cabin) 1 (request 1 a) []) ∧
    (∀ c ∈ [2, 3, 5], ∀ n ∈ [0, 15, 16], Asked (asked c 127 n .inlet) c (request c 127) []) ∧
    (∀ x ∈ [(6, 0), (15, 0), (0, 14), (1, 9), (1, 254), (4, 4)],
      Asked (asked x.1 x.2 0 .inlet) x.1 (request x.1 x.2) []) ∧
    (asked 3 0 0 .inlet).moving = false ∧ (request 1 255).byte 1 = 255 := by
  have h : ∀ a ∈ [0, 8, 255], ∀ n ∈ [0, 15, 16], headAsks (asked 1 a n .cabin) 1 (request 1 a) [] = true := by decide
  have k : ∀ c ∈ [2, 3, 5], ∀ n ∈ [0, 15, 16], headAsks (asked c 127 n .inlet) c (request c 127) [] = true := by decide
  have l : ∀ x ∈ [(6, 0), (15, 0), (0, 14), (1, 9), (1, 254), (4, 4)],
      headAsks (asked x.1 x.2 0 .inlet) x.1 (request x.1 x.2) [] = true := by decide
  exact ⟨fun a m n o => asked_of_headAsks (h a m n o), fun c m n o => asked_of_headAsks (k c m n o),
    fun x m => asked_of_headAsks (l x m), by decide⟩

theorem witness_ResetScopesAreCarriedOut :
    (∀ a ∈ [0, 1, 2, 3], ∀ n ∈ [0, 15, 16], ∀ r ∈ [Role.inlet, .forward, .cabin],
      Asked (asked 4 a n r) 4 (request 4 a) [] ∧ (request 4 a).byte 1 = a ∧ (asked 4 a n r).moving = false) ∧
    (asked 4 0 0 .inlet).transmit.boxes.holdsAccept = false ∧
    (after .resetLink (receiving (request 4 0) accepting)).startup.station = .loading ∧
    accepting.transmit.boxes.holdsAccept = true := by
  have h : ∀ a ∈ [0, 1, 2, 3], ∀ n ∈ [0, 15, 16], ∀ r ∈ [Role.inlet, .forward, .cabin],
      headAsks (asked 4 a n r) 4 (request 4 a) [] = true := by decide
  have k : ∀ a ∈ [0, 1, 2, 3], ∀ n ∈ [0, 15, 16], ∀ r ∈ [Role.inlet, .forward, .cabin],
      (request 4 a).byte 1 = a ∧ (asked 4 a n r).moving = false := by decide
  exact ⟨fun a m n o r q => ⟨asked_of_headAsks (h a m n o r q), k a m n o r q⟩, by decide⟩

/-- RESET_LINK with a stretch factor of 1 and of 4, hearing a peer between its shorter limit and its longer one. -/
theorem witness_ResetScopesAreCarriedOut_stretch :
    (∀ k ∈ [1, 4], Asked { hearing 4 (.present { peer .cabin with lastStatusMs := 3000 }) (asked 4 0 0 .inlet) with
      stretch := { State.reset.stretch with peer := { factor := k, left := some 9 } } } 4 (request 4 0) []) ∧
    3 * (peer .cabin).intervalMs ≤ 3000 := by
  have h : ∀ k ∈ [1, 4], headAsks { hearing 4 (.present { peer .cabin with lastStatusMs := 3000 }) (asked 4 0 0 .inlet) with
      stretch := { State.reset.stretch with peer := { factor := k, left := some 9 } } } 4 (request 4 0) [] = true := by decide
  exact ⟨fun k m => asked_of_headAsks (h k m), by decide⟩

/-- That station with a truck at a speed. -/
def rolling (speed : Nat) (s : State) : State := { s with tracker := { resetTracker with state := .tracking, speed := speed } }

theorem witness_RequestsAreTurnedAway :
    (∀ x ∈ [(3, 0), (4, 0), (4, 1), (4, 2), (4, 3)],
      Asked (rolling 10 (asked x.1 x.2 0 .inlet)) x.1 (request x.1 x.2) [] ∧
      (rolling 10 (asked x.1 x.2 0 .inlet)).tracker.state = .tracking ∧
      10 ≤ (rolling 10 (asked x.1 x.2 0 .inlet)).tracker.speed) ∧
    (∀ x ∈ [(0, 13), (1, 8), (1, 255), (2, 0), (3, 0), (4, 0), (4, 1), (4, 2), (5, 0), (6, 0)],
      Delivered (receiving (request x.1 x.2) (station .inlet .conflict)) 8 (request x.1 x.2) [] ∧
      (request x.1 x.2).index.val = x.1 ∧ (request x.1 x.2).byte 1 = x.2) ∧
    (station .inlet .conflict).startup.station = .conflict ∧
    (frame 8 4 0 [3, 3]).byte 0 ≠ (station .inlet .running).startup.own.val := by
  have h : ∀ x ∈ [(3, 0), (4, 0), (4, 1), (4, 2), (4, 3)],
      headAsks (rolling 10 (asked x.1 x.2 0 .inlet)) x.1 (request x.1 x.2) [] = true ∧
      (rolling 10 (asked x.1 x.2 0 .inlet)).tracker.state = .tracking ∧
      10 ≤ (rolling 10 (asked x.1 x.2 0 .inlet)).tracker.speed := by decide
  have k : ∀ x ∈ [(0, 13), (1, 8), (1, 255), (2, 0), (3, 0), (4, 0), (4, 1), (4, 2), (5, 0), (6, 0)],
      headIs (receiving (request x.1 x.2) (station .inlet .conflict)) 8 (request x.1 x.2) [] = true ∧
      (request x.1 x.2).index.val = x.1 ∧ (request x.1 x.2).byte 1 = x.2 := by decide
  exact ⟨fun x m => ⟨asked_of_headAsks (h x m).1, (h x m).2⟩, fun x m => ⟨delivered_of_headIs (k x m).1, (k x m).2⟩, by decide⟩

/-! ## Conditions every step keeps -/

theorem witness_EveryStepKeepsTheFlags : AlertFollows (after .lampTest (asked 5 0 0 .cabin)) ∧
    LevelFlags (after .guardExpiry (station .inlet .running)) :=
  ⟨by unfold AlertFollows; decide, by decide, by decide, by decide, by decide, by decide⟩

theorem witness_EveryStepKeepsTheLinkInItsBounds : LinkBounded (queued 15 1 none) ∧
    QuietWhenSilenced (station .inlet .running) ∧ ConflictMailboxes (station .inlet .running) :=
  ⟨⟨by decide, by decide, by decide, by decide⟩, by intro _; decide, by intro h; cases h⟩

theorem witness_EveryStepKeepsTheLists : ListsBounded (demanding fullList (tracking (fullTimeline 500) (station .inlet .running))) ∧
    RecordsOrdered (tracking ranked (station .inlet .running)) ∧ PlumeFollows (holding .held [record 0 9 .armed]) := by
  refine ⟨⟨by decide, by decide, ?_⟩, by unfold RecordsOrdered; decide, by unfold PlumeFollows; decide⟩
  intro n i h
  revert h
  have hn : (demanding fullList (tracking (fullTimeline 500) (station .inlet .running))).peers[n].presence = .absent := by
    revert n; decide
  rw [hn]
  intro h
  cases h

theorem witness_EveryStepKeepsTheSafePosition : SafePosition (after .safeTaken (receiving (safe 1 3) (station .inlet .running))) :=
  ⟨by intro _ _; decide, by intro h; exact absurd h (by decide)⟩

theorem witness_EveryStepKeepsTheChannelsSound : ChannelsSound (ramping moving 0) :=
  ⟨⟨by decide, by decide⟩, by decide, by decide⟩

end Sys2Proof.Tests
end

section
/-! PROOFS. The reset state (O3), calibration and smoothing (O9), the slot timers (O11) and the pin edges (O12). -/

namespace Sys2Proof.Machine

open Sys2Proof

/-! ## The reset state, block by block -/

theorem InputUnit.get_resetInputs (p : Pins) (i : Input) : (resetInputs p).get i = settledInput (p.level (.input i)) := by
  cases i with
  | din n => exact mapVector_get settledInput p.din n
  | force => rfl
  | ign => rfl
  | rev => rfl

theorem resetSafeSet_nonempty : resetSafeSet.nonempty = false := by decide

namespace State

theorem records_afterReset (p : Pins) (q : List Instr) (i : Fin 16) :
    (afterReset p q).sequencer.records[i] = resetRecord (afterReset p q).cfg i := tabulate_get _ i

theorem cell_afterReset (p : Pins) (q : List Instr) (c : Counter) : (afterReset p q).cell c = zeroCell :=
  tabulate_get _ c.index

theorem flag_afterReset (p : Pins) (q : List Instr) (f : Flag) : (afterReset p q).flag f = false :=
  tabulate_get _ f.index

theorem frames_afterReset (p : Pins) (q : List Instr) (b : Box) : (afterReset p q).frames b = [] := by
  have empty (n : Fin 16) : (tabulate fun _ => none : Vector (Option Held) 16)[n] = none := tabulate_get _ n
  cases b with
  | demand n => exact congrArg (fun o : Option Held => o.toList.map (·.frame)) (empty n)
  | reading n => exact congrArg (fun o : Option Held => o.toList.map (·.frame)) (empty n)
  | _ => rfl

end State

/-- Settles O3: every block's part is read off the reset state, the vectors of equal entries by `tabulate_get`. -/
theorem resetLeavesEveryBlockInItsResetState : Obligations.ResetLeavesEveryBlockInItsResetState := by
  refine ⟨⟨Pins.low, rfl⟩, fun p q => ?_⟩
  have inputs (i : Input) : ((State.afterReset p q).inputs.get i).level = p.level (.input i) ∧
      ((State.afterReset p q).inputs.get i).timer = none := by
    rw [show (State.afterReset p q).inputs.get i = _ from InputUnit.get_resetInputs p i]
    exact ⟨rfl, rfl⟩
  have records (i : Fin 16) : let r := (State.afterReset p q).sequencer.records[i]
      r.value = 0 ∧ r.seeded = false ∧ r.burden = none ∧ r.warmUp = none ∧
        (r.quality = .warming → r.warmedUp = false) ∧ r.suspect = none := by
    dsimp only
    rw [State.records_afterReset]
    exact ⟨rfl, rfl, rfl, rfl, fun _ => rfl, rfl⟩
  have baselines (i : Fin 16) : (State.afterReset p q).detector.baselines[i].seeded = false :=
    congrArg Baseline.seeded (tabulate_get _ i)
  refine ⟨rfl, rfl, rfl, rfl, rfl, rfl, rfl, inputs, rfl, records, ?_⟩
  refine ⟨rfl, rfl, tabulate_get _, rfl, rfl, rfl, rfl, rfl, rfl, rfl, tabulate_get _, ?_⟩
  refine ⟨rfl, rfl, rfl, rfl, rfl, rfl, rfl, rfl, baselines, rfl, rfl, rfl, rfl, rfl, rfl, resetSafeSet_nonempty, rfl, ?_⟩
  refine ⟨tabulate_get _, rfl, rfl, rfl, rfl, rfl, rfl, rfl, rfl, rfl, rfl, rfl, rfl, rfl, ?_⟩
  exact ⟨State.cell_afterReset p q, rfl, rfl, rfl, rfl, tabulate_get _, State.flag_afterReset p q, rfl,
    State.frames_afterReset p q, rfl, rfl, rfl, rfl, rfl, rfl, rfl, rfl, rfl⟩

/-! ## Calibration and smoothing (R6, R8) -/

/-- With the gain in its range the product of R6 is neither negative nor large. -/
theorem calibration_product_bounds {code : Nat} {gain : Int} (hc : code ≤ 4095) (hl : -512 ≤ gain) (hu : gain ≤ 511) :
    0 ≤ (code : Int) * (4096 + gain) ∧ (code : Int) * (4096 + gain) ≤ 4095 * 4607 :=
  ⟨mul_nonneg (by omega) (by omega), mul_le_mul (by omega) (by omega) (by omega) (by omega)⟩

/-- Where the product is not negative, truncation is division rounded down. -/
theorem calibrate_eq {c : SlotCfg} {code : Nat} (h : 0 ≤ (code : Int) * (4096 + c.gain)) :
    (calibrate c code : Int) = max 0 (min 4095 ((code : Int) * (4096 + c.gain) / 4096 + c.offset)) := by
  unfold calibrate
  rw [Int.tdiv_eq_ediv_of_nonneg h]
  omega

theorem smooth_self (shift v : Nat) : smooth shift v v = v := by simp [smooth]

theorem smooth_up {shift follower new : Nat} (h : follower < new) :
    smooth shift follower new = follower + max 1 ((new - follower) / 2 ^ shift) := by
  have step : ((new : Int) - follower).tdiv (2 ^ shift) = ((new - follower) / 2 ^ shift : Nat) := by
    rw [← Nat.cast_sub h.le]
    exact_mod_cast (Int.ofNat_tdiv (new - follower) (2 ^ shift)).symm
  unfold smooth
  simp only [step, if_pos h]
  generalize (new - follower) / 2 ^ shift = d
  split <;> omega

theorem smooth_down {shift follower new : Nat} (h : new < follower) :
    smooth shift follower new = follower - max 1 ((follower - new) / 2 ^ shift) := by
  have step : ((new : Int) - follower).tdiv (2 ^ shift) = -((follower - new) / 2 ^ shift : Nat) := by
    rw [show (new : Int) - follower = -((follower - new : Nat) : Int) by omega, Int.neg_tdiv]
    exact_mod_cast congrArg Neg.neg (Int.ofNat_tdiv (follower - new) (2 ^ shift)).symm
  unfold smooth
  simp only [step, if_pos h, if_neg h.asymm]
  generalize (follower - new) / 2 ^ shift = d
  split <;> omega

/-- A step of R8 never passes the value it moves toward. -/
theorem smoothing_step_le {d : Nat} (shift : Nat) (h : 0 < d) : max 1 (d / 2 ^ shift) ≤ d :=
  max_le h (Nat.div_le_self _ _)

theorem smooth_zero (follower new : Nat) : smooth 0 follower new = new := by
  rcases Nat.lt_trichotomy follower new with h | rfl | h
  · rw [smooth_up h]; omega
  · exact smooth_self 0 follower
  · rw [smooth_down h]; omega

/-- Settles O9. -/
theorem conversionAndSmoothing : Obligations.ConversionAndSmoothing := by
  refine ⟨fun c code hcode hgl hgu hol hou => ?_, fun shift follower new => ?_⟩
  · obtain ⟨hpos, hmax⟩ := calibration_product_bounds hcode hgl hgu
    refine ⟨hpos, by omega, calibrate_eq hpos, fun hg ho => ?_⟩
    have h := calibrate_eq hpos
    rw [hg, ho] at h
    omega
  · refine ⟨fun h => h ▸ smooth_self shift follower, fun h => ?_, fun h => ?_, smooth_zero follower new⟩
    · have hle := smoothing_step_le shift (Nat.sub_pos_of_lt h)
      rw [smooth_up h]
      omega
    · have hle := smoothing_step_le shift (Nat.sub_pos_of_lt h)
      rw [smooth_down h]
      omega

/-! ## The slot timers (R10, R12, R14) -/

namespace State

theorem records_setRecord_same (s : State) (i : Fin 16) (r : SlotRecord) :
    (s.setRecord i r).sequencer.records[i] = r := (set_get _ i i r).trans (if_pos rfl)

theorem records_setRecord_ne (s : State) {i j : Fin 16} (r : SlotRecord) (h : j ≠ i) :
    (s.setRecord i r).sequencer.records[j] = s.sequencer.records[j] := (set_get _ i j r).trans (if_neg h.symm)

theorem sequencer_chooseOffer (s : State) : s.chooseOffer.sequencer = s.sequencer := by
  unfold chooseOffer
  split <;> rfl

theorem flag_chooseOffer (s : State) (f : Flag) : s.chooseOffer.flag f = s.flag f :=
  s.chooseOffer_notes (.flag f) (by simp)

/-- SENSOR_FAULT after its evaluation is whether some slot is FAULT (R14). -/
theorem flag_evaluateSensorFault (s : State) : s.evaluateSensorFault.flag .sensorFault = s.anyFault :=
  (s.flag_writeFlag _ _ _).trans (if_pos rfl)

theorem anyFault_of_fault {s : State} {i : Fin 16} (h : s.sequencer.records[i].quality = .fault) : s.anyFault = true :=
  List.any_eq_true.mpr ⟨i, List.mem_finRange i, decide_eq_true h⟩

end State

/-- Settles O11. -/
theorem slotTimersExpire : Obligations.SlotTimersExpire := by
  intro i s
  refine ⟨fun h => ?_, fun h => ?_⟩
  · let r : SlotRecord := { s.sequencer.records[i] with warmedUp := true, warmUp := none }
    refine ⟨(s.setRecord i r).chooseOffer, if_pos h, ?_⟩
    rw [State.sequencer_chooseOffer]
    exact ⟨s.records_setRecord_same i r, fun j hj => s.records_setRecord_ne r hj,
      Changes.of ((s.setRecord_only i r).mono (by decide)) (s.setRecord_notes i r) rfl⟩
  · let r : SlotRecord := { s.sequencer.records[i] with quality := .fault, suspect := none }
    have same : (s.setRecord i r).sequencer.records[i] = r := s.records_setRecord_same i r
    refine ⟨(s.setRecord i r).evaluateSensorFault.chooseOffer, if_pos h, ?_⟩
    rw [State.sequencer_chooseOffer, State.flag_chooseOffer, State.flag_evaluateSensorFault]
    refine ⟨same, State.anyFault_of_fault (congrArg SlotRecord.quality same), fun j hj => s.records_setRecord_ne r hj, ?_⟩
    exact Changes.of ((s.setRecord_only i r).seq (State.writeFlag_only _ _ _) (by decide) (by decide))
      ((s.setRecord_notes i r).seq (State.writeFlag_notes _ _ _) (by decide) (by decide)) rfl

/-! ## Pins and inputs (R19, R21) -/

theorem Pins.level_set_same (p : Pins) (pin : Pin) (b : Bool) : (p.set pin b).level pin = b := by
  rcases pin with (n | _ | _ | _) | n | n
  case input.din => exact (set_get p.din n n b).trans (if_pos rfl)
  case sn => exact (set_get p.sn n n b).trans (if_pos rfl)
  case rs => exact (set_get p.rs n n b).trans (if_pos rfl)
  all_goals rfl

theorem Pins.level_set_ne (p : Pins) {pin q : Pin} (b : Bool) (h : q ≠ pin) : (p.set pin b).level q = p.level q := by
  rcases pin with (n | _ | _ | _) | n | n <;> rcases q with (m | _ | _ | _) | m | m
  case input.din.input.din => exact (set_get p.din n m b).trans (if_neg (by rintro rfl; exact h rfl))
  case sn.sn => exact (set_get p.sn n m b).trans (if_neg (by rintro rfl; exact h rfl))
  case rs.rs => exact (set_get p.rs n m b).trans (if_neg (by rintro rfl; exact h rfl))
  all_goals first | rfl | exact absurd rfl h

theorem InputUnit.get_set_same (u : InputUnit) (i : Input) (d : Debounced) : (u.set i d).get i = d := by
  cases i with
  | din n => exact (set_get u.din n n d).trans (if_pos rfl)
  | force => rfl
  | ign => rfl
  | rev => rfl

theorem InputUnit.get_set_ne (u : InputUnit) {i j : Input} (d : Debounced) (h : j ≠ i) :
    (u.set i d).get j = u.get j := by
  cases i <;> cases j
  case din.din n m => exact (set_get u.din n m d).trans (if_neg (by rintro rfl; exact h rfl))
  all_goals first | rfl | exact absurd rfl h

namespace State

theorem setPins_only (s : State) (p : Pins) (u : InputUnit) : Only [.pins, .inputs] s { s with pins := p, inputs := u } := by
  intro q hq
  cases q <;> first | rfl | exact ⟨rfl, rfl⟩ | exact ⟨rfl, rfl, rfl⟩ | exact absurd (by decide) hq

theorem pins_chooseOffer (s : State) : s.chooseOffer.pins = s.pins := s.chooseOffer_only .pins (by decide)

theorem inputs_chooseOffer (s : State) : s.chooseOffer.inputs = s.inputs := s.chooseOffer_only .inputs (by decide)

/-- What an edge leaves of the input unit: the edged input's timer started or stopped, a strap pin's edge nothing. -/
def edgeInputs (s : State) (pin : Pin) (level : Bool) : InputUnit :=
  match pin with
  | .input i => s.inputs.set i ((s.inputs.get i).edge (debounceTime s.cfg i) level)
  | .sn _ => s.inputs
  | .rs _ => s.inputs

theorem execPinEdge_eq (s : State) {pin : Pin} {level : Bool} (h : s.pins.level pin ≠ level) :
    execPinEdge pin level s =
      finish { s with pins := s.pins.set pin level, inputs := s.edgeInputs pin level } := by
  unfold execPinEdge
  rw [if_neg h]
  cases pin <;> rfl

end State

theorem Debounced.edge_level (d : Debounced) (ms : Nat) (level : Bool) : (d.edge ms level).level = d.level := by
  unfold Debounced.edge
  split <;> rfl

/-- Settles O12. -/
theorem pinEdgeStartsOrStopsTheDebounce : Obligations.PinEdgeStartsOrStopsTheDebounce := by
  intro pin level s h
  refine ⟨_, s.execPinEdge_eq h, ?_⟩
  rw [State.pins_chooseOffer, State.inputs_chooseOffer]
  refine ⟨s.pins.level_set_same pin level, fun q hq => s.pins.level_set_ne level hq, ?_, ?_,
    Changes.of ((s.setPins_only _ _).mono (by decide)) (Notes.plain rfl rfl rfl) rfl⟩
  · rintro i rfl
    have same : (s.edgeInputs (.input i) level).get i = (s.inputs.get i).edge (debounceTime s.cfg i) level :=
      s.inputs.get_set_same i _
    rw [same]
    refine ⟨Debounced.edge_level _ _ _, fun away => ?_, fun back => ?_, fun j hj => s.inputs.get_set_ne _ hj⟩
    · unfold Debounced.edge
      rw [if_neg away]
      cases i <;> rfl
    · unfold Debounced.edge
      rw [if_pos back]
  · intro strap
    cases pin with
    | input i => exact absurd rfl (strap i)
    | sn n => rfl
    | rs n => rfl

end Sys2Proof.Machine
end

section
/-! PROOFS. What the end of a debounce hands on: the driver's switches (O13) and the force request (O14). -/

namespace Sys2Proof.Machine

open Sys2Proof

/-! ## Hand-ons seen from the whole event -/

namespace State

/-- The choice of the frame on offer changes the sending side alone, and no frame held there. -/
theorem chooseOffer_eq_transmit (s : State) :
    ∃ x, s.chooseOffer = { s with transmit := x } ∧ ∀ b, ({ s with transmit := x } : State).frames b = s.frames b := by
  have same (b : Box) : s.chooseOffer.frames b = s.frames b := frames_same (s.chooseOffer_notes (.box b) (by simp))
  have eq : ∃ x, s.chooseOffer = { s with transmit := x } := by
    unfold chooseOffer
    split
    · exact ⟨_, rfl⟩
    · exact ⟨s.transmit, rfl⟩
  obtain ⟨x, hx⟩ := eq
  exact ⟨x, hx, fun b => hx ▸ same b⟩

end State

theorem TargetsHanded.withTransmit {t : State} {x : Transmit} (h : TargetsHanded t) :
    TargetsHanded { t with transmit := x } :=
  ⟨h.safe, h.flush, h.scrub, h.idle, h.recirc, h.auto⟩

theorem LocalRaised.withTransmit {source : Fin 16} {r : DemandRegime} {level : Nat} {s t : State} {x : Transmit}
    (h : LocalRaised source r level s t) : LocalRaised source r level s { t with transmit := x } :=
  ⟨h.again, h.room, h.full⟩

/-- The end of the event, which chooses a frame to offer, keeps what a condition handed on. -/
theorem ConditionHanded.chooseOffer {source : Fin 16} {r : DemandRegime} {level : Nat} {holds : Bool} {s t : State}
    (h : ConditionHanded source r level holds s t) : ConditionHanded source r level holds s t.chooseOffer := by
  obtain ⟨x, hx, frames⟩ := t.chooseOffer_eq_transmit
  rw [hx]
  refine ⟨fun hr hs hh => (h.raised hr hs hh).withTransmit, h.withdrawn, fun hr hs => ?_, fun hr => ?_,
    fun hr hh hs he => ?_, fun hr hh he => ?_, fun hr hc => ?_, h.others, h.elsewhere⟩
  · exact ⟨(h.selected hr hs).1, fun hne => ((h.selected hr hs).2 hne).withTransmit⟩
  · rw [frames]
    exact h.inlet hr
  · obtain ⟨emitter, queued⟩ := h.begins hr hh hs he
    exact ⟨emitter, by rw [frames]; exact queued⟩
  · obtain ⟨emitter, queued⟩ := h.ends hr hh he
    exact ⟨emitter, by rw [frames]; exact queued⟩
  · rw [frames]
    exact h.stays hr hc

/-- What a condition hands on does not depend on the input unit of the state before. -/
theorem ConditionHanded.ofInputs {source : Fin 16} {r : DemandRegime} {level : Nat} {holds : Bool} {s t : State}
    {u : InputUnit} (h : ConditionHanded source r level holds { s with inputs := u } t) :
    ConditionHanded source r level holds s t :=
  ⟨fun hr hs hh => ⟨(h.raised hr hs hh).again, (h.raised hr hs hh).room, (h.raised hr hs hh).full⟩, h.withdrawn,
    h.selected, h.inlet, h.begins, h.ends, h.stays, h.others, h.elsewhere⟩

/-- The end of the event, which chooses a frame to offer, keeps what a safe reason handed on. -/
theorem SafeReasonHanded.chooseOffer {q : SafeSet} {s t : State} (h : SafeReasonHanded q s t) :
    SafeReasonHanded q s t.chooseOffer := by
  obtain ⟨x, hx, frames⟩ := t.chooseOffer_eq_transmit
  rw [hx]
  refine ⟨h.set, h.entered, fun hr hs hb hq => ?_, h.inside, fun hr => ?_, fun hr hs he hc => ?_,
    fun hr hs he hf hq => ?_, fun hr hc => ?_, h.others, h.elsewhere⟩
  · obtain ⟨flag, selected, targets⟩ := h.left hr hs hb hq
    exact ⟨flag, selected, targets.withTransmit⟩
  · rw [frames]
    exact h.inlet hr
  · obtain ⟨emitter, queued⟩ := h.begins hr hs he hc
    exact ⟨emitter, by rw [frames]; exact queued⟩
  · obtain ⟨emitter, queued⟩ := h.ends hr hs he hf hq
    exact ⟨emitter, by rw [frames]; exact queued⟩
  · rw [frames]
    exact h.stays hr hc

/-- What a safe reason hands on does not depend on the input unit of the state before. -/
theorem SafeReasonHanded.ofInputs {q : SafeSet} {s t : State} {u : InputUnit}
    (h : SafeReasonHanded q { s with inputs := u } t) : SafeReasonHanded q s t :=
  ⟨h.set, h.entered, h.left, h.inside, h.inlet, h.begins, h.ends, h.stays, h.others, h.elsewhere⟩

/-! ## Function levels (R18, R20) -/

namespace State

/-- Function levels are read from the input unit, the configuration, the role and the station state. -/
theorem functionLevel_congr {s t : State} (hi : t.inputs = s.inputs) (hc : t.cfg = s.cfg)
    (hr : t.startup.role = s.startup.role) (hs : t.startup.station = s.startup.station) (f : InputFunction) :
    t.functionLevel f = s.functionLevel f := by
  unfold functionLevel inputFunction inputActive
  rw [hi, hc, hr, hs]

/-- The level of a function outside LOADING, where the configured function is the one in force for all but DOOR. -/
theorem functionLevel_iff {s : State} {f : InputFunction} (hs : s.startup.station ≠ .loading) (hd : f ≠ .door)
    (hn : f ≠ .none) :
    s.functionLevel f = true ↔ ∃ n, s.cfg.inputs[n].function = f ∧ s.inputActive n = true := by
  have function (n : Fin 4) : s.inputFunction n = f ↔ s.cfg.inputs[n].function = f := by
    unfold inputFunction
    rw [if_neg hs]
    split
    · next h => exact ⟨fun e => absurd e.symm hn, fun e => absurd (e.symm.trans h.1) hd⟩
    · exact Iff.rfl
  simp only [functionLevel, List.any_eq_true, List.mem_finRange, true_and, Bool.and_eq_true, decide_eq_true_eq, function]

/-! ## The debounced level taken -/

/-- The debounced level of an input takes its pin's level, and its timer stops. -/
def takePin (s : State) (i : Input) : State :=
  { s with inputs := s.inputs.set i { level := s.pins.level (.input i), timer := none } }

/-- A door opening is counted. -/
def countDoor (s before : State) (i : Input) : State := if s.doorOpened before i then s.count .doorOpenings else s

/-- DEBOUNCE_EXPIRY with the timer running: the level is taken, a door opening counted, and the changes handed on. -/
theorem execDebounceExpiry_eq {s : State} {i : Input} (h : (s.inputs.get i).timer.isSome = true) :
    execDebounceExpiry i s = .next (((s.takePin i).countDoor s i).handLevels s).chooseOffer := if_pos h

/-- A function level that changes is that of the debounced input's own function. -/
theorem functionLevel_takePin {s : State} {i : Input} {f : InputFunction}
    (h : (s.takePin i).functionLevel f ≠ s.functionLevel f) : ∃ n, i = .din n ∧ s.inputFunction n = f := by
  by_contra hno
  refine h (congrArg (fun p => (List.finRange 4).any p) (funext fun m => ?_))
  show (decide (s.inputFunction m = f) && (s.takePin i).inputActive m) = (decide (s.inputFunction m = f) && s.inputActive m)
  by_cases hf : s.inputFunction m = f
  · have hm : (s.takePin i).inputs.get (.din m) = s.inputs.get (.din m) :=
      s.inputs.get_set_ne _ fun e => hno ⟨m, e.symm, hf⟩
    have active : (s.takePin i).inputActive m = s.inputActive m :=
      congrArg (fun d : Debounced => match s.cfg.inputs[m].polarity with
        | .activeHigh => d.level
        | .activeLow => !d.level) hm
    rw [active]
  · rw [decide_eq_false hf]
    rfl

/-- At most one function level changes at a time. -/
theorem functionLevel_takePin_of_ne {s : State} {i : Input} {f g : InputFunction}
    (h : (s.takePin i).functionLevel f ≠ s.functionLevel f) (hne : g ≠ f) :
    (s.takePin i).functionLevel g = s.functionLevel g := by
  by_contra hg
  obtain ⟨n, hn, hf⟩ := functionLevel_takePin h
  obtain ⟨m, hm, hg⟩ := functionLevel_takePin hg
  obtain rfl : n = m := Input.din.inj (hn.symm.trans hm)
  exact hne (hg.symm.trans hf)

theorem functionLevel_takePin_pin {s : State} {i : Input} (h : ∀ n, i ≠ .din n) (f : InputFunction) :
    (s.takePin i).functionLevel f = s.functionLevel f := by
  by_contra hf
  obtain ⟨n, hn, -⟩ := functionLevel_takePin hf
  exact h n hn

theorem forceLevel_takePin_din (s : State) (n : Fin 4) : (s.takePin (.din n)).inputs.force = s.inputs.force := rfl

/-- A change of another function's level leaves the force request. -/
theorem forceRequest_takePin_of_ne {s : State} {i : Input} {f : InputFunction}
    (h : (s.takePin i).functionLevel f ≠ s.functionLevel f) (hne : f ≠ .forceAlt) :
    (s.takePin i).forceRequest = s.forceRequest := by
  obtain ⟨n, rfl, -⟩ := functionLevel_takePin h
  unfold forceRequest
  rw [forceLevel_takePin_din, functionLevel_takePin_of_ne h hne.symm]

/-- A change of the force request leaves the levels of the other functions. -/
theorem functionLevel_takePin_of_force {s : State} {i : Input} {f : InputFunction}
    (h : (s.takePin i).forceRequest ≠ s.forceRequest) (hne : f ≠ .forceAlt) :
    (s.takePin i).functionLevel f = s.functionLevel f := by
  by_contra hf
  exact h (forceRequest_takePin_of_ne hf hne)

/-- IGN and REV have no part in the force request. -/
theorem forceRequest_takePin_key {s : State} {i : Input} (h : i = .ign ∨ i = .rev) :
    (s.takePin i).forceRequest = s.forceRequest := by
  have level (f : InputFunction) : (s.takePin i).functionLevel f = s.functionLevel f :=
    functionLevel_takePin_pin (fun n e => by rcases h with rfl | rfl <;> cases e) f
  unfold forceRequest
  rw [level]
  rcases h with rfl | rfl <;> rfl

/-! ## The door count -/

/-- Only an input whose function is DOOR opens a door. -/
theorem function_of_doorOpened {s before : State} {i : Input} (h : s.doorOpened before i = true) :
    ∃ n, i = .din n ∧ s.inputFunction n = .door := by
  cases i with
  | din n =>
    simp only [doorOpened, Bool.and_eq_true, decide_eq_true_eq] at h
    exact ⟨n, rfl, h.1.1⟩
  | _ => cases h

theorem countDoor_eq_self {s before : State} {i : Input} (h : ∀ n, i = .din n → s.inputFunction n ≠ .door) :
    s.countDoor before i = s := by
  refine if_neg fun hd => ?_
  obtain ⟨n, hn, hf⟩ := function_of_doorOpened hd
  exact h n hn hf

/-- No door opens while another function's level changes. -/
theorem countDoor_takePin_of_level {s : State} {i : Input} {f : InputFunction}
    (h : (s.takePin i).functionLevel f ≠ s.functionLevel f) (hne : f ≠ .door) :
    (s.takePin i).countDoor s i = s.takePin i := by
  refine countDoor_eq_self fun n hn hd => ?_
  obtain ⟨m, hm, hf⟩ := functionLevel_takePin h
  obtain rfl : n = m := Input.din.inj (hn.symm.trans hm)
  exact hne (hf.symm.trans hd)

theorem countDoor_takePin_of_loading {s : State} (i : Input) (h : s.startup.station = .loading) :
    (s.takePin i).countDoor s i = s.takePin i := by
  refine countDoor_eq_self fun n _ hd => ?_
  have unused : (s.takePin i).inputFunction n = .none := if_pos h
  rw [unused] at hd
  cases hd

theorem countDoor_takePin_of_force {s : State} {i : Input} (h : (s.takePin i).forceRequest ≠ s.forceRequest) :
    (s.takePin i).countDoor s i = s.takePin i := by
  cases i with
  | din n =>
    refine countDoor_takePin_of_level (f := .forceAlt) (fun e => h ?_) (by decide)
    unfold forceRequest
    rw [forceLevel_takePin_din, e]
  | force => rfl
  | ign => rfl
  | rev => rfl

theorem countDoor_only (s before : State) (i : Input) :
    Only [.counters, .flagBits, .alert] s (s.countDoor before i) := Only.ite (count_only _ _) (Only.refl _ _)

theorem countDoor_notes (s before : State) (i : Input) :
    Notes [.counter .doorOpenings, .flag .counterRollover] s (s.countDoor before i) :=
  Notes.ite (count_notes _ _) (Notes.refl _ _)

/-! ## The changes handed on -/

/-- Nothing is handed on in LOADING, nor where no level changes. -/
theorem handLevels_of_same {s before : State}
    (h : s.startup.station = .loading ∨ (s.anyDoorOpen = before.anyDoorOpen ∧ s.recircSwitch = before.recircSwitch ∧
      s.flushSwitch = before.flushSwitch ∧ s.forceRequest = before.forceRequest)) : s.handLevels before = s := by
  unfold handLevels
  rcases h with h | ⟨door, recirc, flush, force⟩
  · exact if_pos h
  · simp only [door, recirc, flush, force, if_true, ite_self]

theorem handLevels_recirc {s before : State} (hs : s.startup.station ≠ .loading)
    (hd : s.anyDoorOpen = before.anyDoorOpen) (hr : s.recircSwitch ≠ before.recircSwitch)
    (hf : s.flushSwitch = before.flushSwitch) (hq : s.forceRequest = before.forceRequest) :
    s.handLevels before = s.conditionChanged 2 .recirc s.cfg.driverLevel s.recircSwitch := by
  unfold handLevels
  rw [if_neg hs]
  dsimp only
  rw [if_pos hd, if_neg hr, if_pos hf, if_pos hq]

theorem handLevels_flush {s before : State} (hs : s.startup.station ≠ .loading)
    (hd : s.anyDoorOpen = before.anyDoorOpen) (hr : s.recircSwitch = before.recircSwitch)
    (hf : s.flushSwitch ≠ before.flushSwitch) (hq : s.forceRequest = before.forceRequest) :
    s.handLevels before = s.conditionChanged 3 .flush s.cfg.driverLevel s.flushSwitch := by
  unfold handLevels
  rw [if_neg hs]
  dsimp only
  rw [if_pos hd, if_pos hr, if_neg hf, if_pos hq]

theorem handLevels_force {s before : State} (hs : s.startup.station ≠ .loading)
    (hd : s.anyDoorOpen = before.anyDoorOpen) (hr : s.recircSwitch = before.recircSwitch)
    (hf : s.flushSwitch = before.flushSwitch) (hq : s.forceRequest ≠ before.forceRequest) :
    s.handLevels before = s.forceChanged := by
  unfold handLevels
  rw [if_neg hs]
  dsimp only
  rw [if_pos hd, if_pos hr, if_pos hf, if_neg hq]

/-- The force request's users: the safe-source set with the regime on an INLET, the safe emitter elsewhere. -/
theorem forceChanged_parts (s : State) : Only (.emitters :: .boxes :: .safeSet :: regimeParts) s s.forceChanged := by
  unfold forceChanged
  exact Only.ite ((setSafe_only _ _).mono (by decide)) ((safeReasonsChanged_only _).mono (by decide))

theorem takePin_only (s : State) (i : Input) : Only [.inputs] s (s.takePin i) := by
  intro p hp
  cases p <;> first | rfl | exact ⟨rfl, rfl⟩ | exact ⟨rfl, rfl, rfl⟩ | exact absurd (by decide) hp

theorem takePin_notes (s : State) (i : Input) : Notes [] s (s.takePin i) := Notes.plain rfl rfl rfl

/-- What follows once the level has been taken: nothing of it reaches the input unit. -/
theorem takePin_handed_only (s : State) (i : Input) :
    Only (.offer :: .scrub :: conditionParts) (s.takePin i)
      (((s.takePin i).countDoor s i).handLevels s).chooseOffer :=
  (((countDoor_only _ s i).mono (by decide)).trans ((handLevels_only _ s).mono (by decide))).trans
    ((chooseOffer_only _).mono (by decide))

theorem functionLevel_handed (s : State) (i : Input) (f : InputFunction) :
    (((s.takePin i).countDoor s i).handLevels s).chooseOffer.functionLevel f = (s.takePin i).functionLevel f := by
  have h := takePin_handed_only s i
  exact functionLevel_congr (h .inputs (by decide)) (h .cfg (by decide)) (h .role (by decide)) (h .station (by decide)) f

theorem forceRequest_handed (s : State) (i : Input) :
    (((s.takePin i).countDoor s i).handLevels s).chooseOffer.forceRequest = (s.takePin i).forceRequest := by
  have inputs : State.inputs _ = _ := takePin_handed_only s i .inputs (by decide)
  unfold forceRequest
  rw [functionLevel_handed, inputs]

theorem functionLevel_countDoor (s before : State) (i : Input) (f : InputFunction) :
    (s.countDoor before i).functionLevel f = s.functionLevel f := by
  have h := countDoor_only s before i
  exact functionLevel_congr (h .inputs (by decide)) (h .cfg (by decide)) (h .role (by decide)) (h .station (by decide)) f

theorem forceRequest_countDoor (s before : State) (i : Input) :
    (s.countDoor before i).forceRequest = s.forceRequest := by
  have inputs : State.inputs _ = _ := countDoor_only s before i .inputs (by decide)
  unfold forceRequest
  rw [functionLevel_countDoor, inputs]

/-- The event's frame, whatever the input. -/
theorem debounce_changes (s : State) (i : Input) :
    Changes [.inputs, .scrub, .emitters, .demands, .safeSet, .regime, .mix, .damper, .blower, .settle, .alert]
      (.counter .doorOpenings :: levelNotes) s (((s.takePin i).countDoor s i).handLevels s).chooseOffer := by
  have parts := ((countDoor_only (s.takePin i) s i).mono (by decide)).trans (handLevels_only _ s)
  refine Changes.of ((takePin_only s i).seq parts (by decide) (by decide)) ?_ (parts .offer (by decide))
  exact ((takePin_notes s i).mono (by simp)).trans
    (((countDoor_notes _ s i).mono (by decide)).trans ((handLevels_notes _ s).mono (by simp)))

/-- The event's frame where nothing is handed on. -/
theorem debounce_changes_of_same {s : State} {i : Input}
    (h : ((s.takePin i).countDoor s i).handLevels s = (s.takePin i).countDoor s i) :
    Changes [.inputs, .alert] [.counter .doorOpenings, .flag .counterRollover] s
      (((s.takePin i).countDoor s i).handLevels s).chooseOffer := by
  have door := countDoor_only (s.takePin i) s i
  rw [h]
  exact Changes.of ((takePin_only s i).seq door (by decide) (by decide))
    (((takePin_notes s i).mono (by simp)).trans (countDoor_notes _ s i)) (door .offer (by decide))

/-- The event's frame where no door is counted either. -/
theorem debounce_changes_of_quiet {s : State} {i : Input} (hd : (s.takePin i).countDoor s i = s.takePin i)
    (h : (s.takePin i).handLevels s = s.takePin i) :
    Changes [.inputs] [] s (((s.takePin i).countDoor s i).handLevels s).chooseOffer := by
  rw [hd, h]
  exact Changes.of ((takePin_only s i).mono (by decide)) (takePin_notes s i) rfl

/-- A change of the recirculation switch is all that is handed on. -/
theorem handed_recirc {s : State} {i : Input} (hs : s.startup.station ≠ .loading)
    (h : (s.takePin i).recircSwitch ≠ s.recircSwitch) : ((s.takePin i).countDoor s i).handLevels s =
      (s.takePin i).conditionChanged 2 .recirc s.cfg.driverLevel (s.takePin i).recircSwitch := by
  rw [countDoor_takePin_of_level h (by decide)]
  exact handLevels_recirc hs (functionLevel_takePin_of_ne h (by decide)) h (functionLevel_takePin_of_ne h (by decide))
    (forceRequest_takePin_of_ne h (by decide))

/-- A change of the flush switch is all that is handed on. -/
theorem handed_flush {s : State} {i : Input} (hs : s.startup.station ≠ .loading)
    (h : (s.takePin i).flushSwitch ≠ s.flushSwitch) : ((s.takePin i).countDoor s i).handLevels s =
      (s.takePin i).conditionChanged 3 .flush s.cfg.driverLevel (s.takePin i).flushSwitch := by
  rw [countDoor_takePin_of_level h (by decide)]
  exact handLevels_flush hs (functionLevel_takePin_of_ne h (by decide)) (functionLevel_takePin_of_ne h (by decide)) h
    (forceRequest_takePin_of_ne h (by decide))

/-- A change of the force request is all that is handed on. -/
theorem handed_force {s : State} {i : Input} (hs : s.startup.station ≠ .loading)
    (h : (s.takePin i).forceRequest ≠ s.forceRequest) :
    ((s.takePin i).countDoor s i).handLevels s = (s.takePin i).forceChanged := by
  rw [countDoor_takePin_of_force h]
  exact handLevels_force hs (functionLevel_takePin_of_force h (by decide)) (functionLevel_takePin_of_force h (by decide))
    (functionLevel_takePin_of_force h (by decide)) h

/-- In LOADING every input has the function NONE, so no function level changes. -/
theorem functionLevel_of_loading {s : State} (h : s.startup.station = .loading) {f : InputFunction} (hf : f ≠ .none) :
    s.functionLevel f = false := by
  refine List.any_eq_false.mpr fun n _ => ?_
  have unused : s.inputFunction n = .none := if_pos h
  rw [unused, decide_eq_false hf.symm]
  exact Bool.false_ne_true

end State

/-- Settles O13: of the function levels only that of the input's own function can change, so a change of a switch is all
that its event hands on. -/
theorem debounceExpiryTakesThePinLevel : Obligations.DebounceExpiryTakesThePinLevel := by
  intro i s h
  have only := s.takePin_handed_only i
  have inputs : State.inputs _ = _ := only .inputs (by decide)
  have cfg : State.cfg _ = _ := only .cfg (by decide)
  have station : Startup.station _ = _ := only .station (by decide)
  have recirc := s.functionLevel_handed i .switchRecirc
  have flush := s.functionLevel_handed i .switchFlush
  have loaded {f : InputFunction} (hf : f ≠ .none) (hne : (s.takePin i).functionLevel f ≠ s.functionLevel f) :
      s.startup.station ≠ .loading := fun hs =>
    hne ((State.functionLevel_of_loading (s := s.takePin i) hs hf).trans (State.functionLevel_of_loading hs hf).symm)
  refine ⟨_, State.execDebounceExpiry_eq h, ?_, ?_, s.debounce_changes i, ?_, ?_, ?_, ?_, ?_, ?_⟩
  · rw [inputs]
    exact s.inputs.get_set_same i _
  · intro j hj
    rw [inputs]
    exact s.inputs.get_set_ne _ hj
  · intro hs
    have level {f : InputFunction} := State.functionLevel_iff (f := f) (fun e => hs (station.symm.trans e))
    rw [cfg] at level
    exact ⟨level (by decide) (by decide), level (by decide) (by decide)⟩
  · intro hne
    have hne' : (s.takePin i).recircSwitch ≠ s.recircSwitch := fun e => hne (recirc.trans e)
    rw [show State.recircSwitch _ = _ from recirc, State.handed_recirc (loaded (by decide) hne') hne']
    exact (State.conditionChanged_handed (s.takePin i) 2 _ _ _ fun _ => rfl).chooseOffer.ofInputs
  · intro hne
    have hne' : (s.takePin i).flushSwitch ≠ s.flushSwitch := fun e => hne (flush.trans e)
    rw [show State.flushSwitch _ = _ from flush, State.handed_flush (loaded (by decide) hne') hne']
    exact (State.conditionChanged_handed (s.takePin i) 3 _ _ _ fun _ => rfl).chooseOffer.ofInputs
  · intro hd hr hf hq
    have level {f : InputFunction} {b : Bool}
        (e : (((s.takePin i).countDoor s i).handLevels s).chooseOffer.functionLevel f = b) :
        ((s.takePin i).countDoor s i).functionLevel f = b :=
      (State.functionLevel_countDoor _ s i f).trans ((s.functionLevel_handed i f).symm.trans e)
    have force := (State.forceRequest_countDoor (s.takePin i) s i).trans ((s.forceRequest_handed i).symm.trans hq)
    exact State.debounce_changes_of_same (State.handLevels_of_same (.inr ⟨level hd, level hr, level hf, force⟩))
  · intro key
    have pin (n : Fin 4) : i ≠ .din n := fun e => by rcases key with rfl | rfl <;> cases e
    have level := State.functionLevel_takePin_pin (s := s) pin
    exact State.debounce_changes_of_quiet (State.countDoor_eq_self fun n hn => absurd hn (pin n))
      (State.handLevels_of_same (.inr ⟨level _, level _, level _, State.forceRequest_takePin_key key⟩))
  · intro hs
    exact State.debounce_changes_of_quiet (State.countDoor_takePin_of_loading i hs) (State.handLevels_of_same (.inl hs))

/-- Settles O14: where the force request changes no other level does, so its hand-on is the event's whole effect. -/
theorem forceRequestReachesTheSafeLogic : Obligations.ForceRequestReachesTheSafeLogic := by
  intro i s h hs
  have only := s.takePin_handed_only i
  have cfg : State.cfg _ = _ := only .cfg (by decide)
  have station : Startup.station _ = _ := only .station (by decide)
  refine ⟨_, State.execDebounceExpiry_eq h, ?_, fun hne => ?_⟩
  · have level := State.functionLevel_iff (f := .forceAlt) (fun e => hs (station.symm.trans e)) (by decide) (by decide)
    rw [cfg] at level
    unfold State.forceRequest
    rw [Bool.or_eq_true, level]
    rfl
  · rw [s.forceRequest_handed i] at hne ⊢
    rw [State.handed_force hs hne]
    refine ⟨(State.forceChanged_handed (s.takePin i)).chooseOffer.ofInputs, ?_⟩
    have parts := (s.takePin i).forceChanged_parts
    exact Changes.of ((s.takePin_only i).seq parts (by decide) (by decide))
      (((s.takePin_notes i).mono (by simp)).trans (State.forceChanged_notes _)) (parts .offer (by decide))

end Sys2Proof.Machine
end

section
/-! PROOFS. DWELL_EXPIRY (O10): the conversion by the table of R11, and the sweep end's users in their order. -/

namespace Sys2Proof.Machine

open Sys2Proof

/-! ## The table of R11, row by row -/

theorem onRails_iff (c : SlotCfg) (code : Nat) : onRails c code = true ↔ c.railCheck = true ∧ (code = 0 ∨ code = 4095) := by
  simp [onRails]

theorem burdenOf_eq (c : SlotCfg) (seeded : Bool) (value : Nat) :
    burdenOf c seeded value = if seeded = true ∧ (c.kind = .pm ∨ c.kind = .no2 ∨ c.kind = .co2) then
      some (min 4000 (value * 1000 / c.limit)) else none := by
  unfold burdenOf
  cases c.kind <;> simp [Kind.isPollutant]

namespace SlotRecord

/-- Until its warm-up has elapsed a slot is not judged. -/
theorem judge_warming {r : SlotRecord} (c : SlotCfg) (ms code : Nat) (h : r.quality = .warming) (hw : r.warmedUp = false) :
    r.judge c ms code = r := by
  unfold judge
  rw [h]
  dsimp only
  rw [hw]
  rfl

/-- A judged slot that is on the rails becomes SUSPECT, unless it is SUSPECT or FAULT already. -/
theorem judge_rails {r : SlotRecord} {c : SlotCfg} {code : Nat} (ms : Nat) (hr : onRails c code = true)
    (h : r.quality = .good ∨ (r.quality = .warming ∧ r.warmedUp = true)) : r.judge c ms code = r.enterSuspect ms := by
  unfold judge
  rcases h with h | ⟨h, hw⟩
  · rw [h]
    exact if_pos hr
  · rw [h]
    dsimp only
    rw [if_pos hw, if_pos hr]

/-- A SUSPECT or FAULT slot that is still on the rails stays as it is. -/
theorem judge_rails_again {r : SlotRecord} {c : SlotCfg} {code : Nat} (ms : Nat) (hr : onRails c code = true)
    (h : r.quality = .suspect ∨ r.quality = .fault) : r.judge c ms code = r := by
  unfold judge
  rcases h with h | h <;> rw [h] <;> exact if_pos hr

/-- A GOOD slot off the rails follows its new value. -/
theorem judge_good {r : SlotRecord} {c : SlotCfg} {code : Nat} (ms : Nat) (hr : ¬ onRails c code = true)
    (h : r.quality = .good) :
    r.judge c ms code =
      { r with quality := .good, value := smooth c.shift r.value (engineering c (calibrate c code)) } := by
  unfold judge
  rw [h]
  exact if_neg hr

/-- A slot that comes off the rails, or whose warm-up has elapsed, is seeded. -/
theorem judge_seeds {r : SlotRecord} {c : SlotCfg} {code : Nat} (ms : Nat) (hr : ¬ onRails c code = true)
    (h : r.quality = .suspect ∨ r.quality = .fault ∨ (r.quality = .warming ∧ r.warmedUp = true)) :
    r.judge c ms code = r.seed (engineering c (calibrate c code)) := by
  unfold judge
  rcases h with h | h | ⟨h, hw⟩
  · rw [h]
    exact if_neg hr
  · rw [h]
    exact if_neg hr
  · rw [h]
    dsimp only
    rw [if_pos hw, if_neg hr]

/-- No conversion touches the warm-up. -/
theorem judge_warmUp (c : SlotCfg) (ms : Nat) (r : SlotRecord) (code : Nat) :
    (r.judge c ms code).warmUp = r.warmUp ∧ (r.judge c ms code).warmedUp = r.warmedUp := by
  unfold judge
  dsimp only
  cases r.quality with
  | absent => exact ⟨rfl, rfl⟩
  | warming =>
    dsimp only
    split
    · split <;> exact ⟨rfl, rfl⟩
    · exact ⟨rfl, rfl⟩
  | good => dsimp only; split <;> exact ⟨rfl, rfl⟩
  | suspect => dsimp only; split <;> exact ⟨rfl, rfl⟩
  | fault => dsimp only; split <;> exact ⟨rfl, rfl⟩

end SlotRecord

/-! ## The conversion of a slot -/

namespace State

theorem convertSlot_of_none {s : State} {i : Fin 16} (code : Nat) (h : s.cfg.slots[i].channel = none) :
    s.convertSlot i code = s := by
  unfold convertSlot
  dsimp only
  rw [h]

theorem convertSlot_of_some {s : State} {i : Fin 16} (code : Nat) (h : s.cfg.slots[i].channel.isSome = true) :
    s.convertSlot i code = (s.setRecord i
      (s.sequencer.records[i].convert s.cfg.slots[i] (seconds s.cfg.faultTimeS) code)).evaluateSensorFault := by
  obtain ⟨a, ha⟩ := Option.isSome_iff_exists.mp h
  unfold convertSlot
  dsimp only
  rw [ha]

theorem records_convertSlot_same {s : State} {i : Fin 16} (code : Nat) (h : s.cfg.slots[i].channel.isSome = true) :
    (s.convertSlot i code).sequencer.records[i] =
      s.sequencer.records[i].convert s.cfg.slots[i] (seconds s.cfg.faultTimeS) code := by
  rw [convertSlot_of_some code h]
  exact s.records_setRecord_same i _

theorem records_convertSlot_ne (s : State) {i j : Fin 16} (code : Nat) (h : j ≠ i) :
    (s.convertSlot i code).sequencer.records[j] = s.sequencer.records[j] := by
  unfold convertSlot
  dsimp only
  split
  · rfl
  · exact s.records_setRecord_ne _ h

theorem flag_convertSlot {s : State} {i : Fin 16} (code : Nat) (h : s.cfg.slots[i].channel.isSome = true) :
    (s.convertSlot i code).flag .sensorFault = (s.convertSlot i code).anyFault := by
  rw [convertSlot_of_some code h]
  exact flag_evaluateSensorFault _

/-! ## The sweep end -/

/-- The part of a sweep end that follows the detector and comes before the stall check. -/
def sweepUsers (s : State) (order : SweepOrder) : State :=
  match order with
  | .rulesFirst => s.evaluateRules.computeMix false
  | .mixFirst => (s.computeMix false).evaluateRules

theorem sweepEnd_eq (s : State) (order : SweepOrder) :
    s.sweepEnd order = (s.detectorSweep.sweepUsers order).stallCheck := by
  cases order <;> rfl

theorem sweepUsers_only (s : State) (order : SweepOrder) : Only ruleParts s (s.sweepUsers order) := by
  have mix (t : State) : Only ruleParts t (t.computeMix false) := (computeMix_only t false).mono (by decide)
  cases order with
  | rulesFirst => exact (evaluateRules_only s).trans (mix _)
  | mixFirst => exact (mix s).trans (evaluateRules_only _)

/-- Of the users of a sweep end the detector's state is the detector's own. -/
theorem sweepEnd_detector (s : State) (order : SweepOrder) : (s.sweepEnd order).detector = s.detectorSweep.detector := by
  rw [sweepEnd_eq]
  have users : State.detector _ = _ := sweepUsers_only s.detectorSweep order .detector (by decide)
  have stall : State.detector _ = _ := stallCheck_only (s.detectorSweep.sweepUsers order) .detector (by decide)
  exact stall.trans users

theorem sweepEnd_keeps_records (s : State) (order : SweepOrder) :
    (s.sweepEnd order).sequencer.records = s.sequencer.records := sweepEnd_only s order .records (by decide)

theorem sweepEnd_keeps_sensorFault (s : State) (order : SweepOrder) :
    (s.sweepEnd order).flag .sensorFault = s.flag .sensorFault := sweepEnd_notes s order (.flag .sensorFault) (by decide)

/-! ## The event -/

/-- The conversion at the sweep position, with the sweep end announced at the stop slot. -/
def dwellEnds (s : State) (code : Nat) (order : SweepOrder) : State :=
  if s.sequencer.position = s.cfg.stopSlot then (s.convertSlot s.sequencer.position code).sweepEnd order
  else s.convertSlot s.sequencer.position code

theorem execDwellExpiry_eq {s : State} (code : Nat) (order : SweepOrder) (h : s.sequencer.dwell.isSome = true) :
    execDwellExpiry code order s =
      .next ((s.dwellEnds code order).startDwell (nextSlot s.cfg s.sequencer.position)).chooseOffer := if_pos h

theorem dwellEnds_records (s : State) (code : Nat) (order : SweepOrder) :
    (s.dwellEnds code order).sequencer.records = (s.convertSlot s.sequencer.position code).sequencer.records := by
  unfold dwellEnds
  split
  · exact sweepEnd_keeps_records _ order
  · rfl

theorem dwellEnds_sensorFault (s : State) (code : Nat) (order : SweepOrder) :
    (s.dwellEnds code order).flag .sensorFault = (s.convertSlot s.sequencer.position code).flag .sensorFault := by
  unfold dwellEnds
  split
  · exact sweepEnd_keeps_sensorFault _ order
  · rfl

theorem dwellEnds_cfg (s : State) (code : Nat) (order : SweepOrder) : (s.dwellEnds code order).cfg = s.cfg := by
  have convert : State.cfg _ = _ := convertSlot_only s s.sequencer.position code .cfg (by decide)
  unfold dwellEnds
  split
  · exact (sweepEnd_only _ order .cfg (by decide)).trans convert
  · exact convert

theorem startDwell_notes (s : State) (i : Fin 16) : Notes [] s (s.startDwell i) := Notes.plain rfl rfl rfl

end State

theorem nextSlot_eq (c : Cfg) (i : Fin 16) : nextSlot c i = if i = c.stopSlot then sweepStart c else i + 1 := by
  unfold nextSlot
  split
  · rfl
  · exact Fin.ext (by simp [Fin.val_add])

namespace SlotRecord

/-- A conversion judges the slot and forms the burden of the result. -/
theorem convert_of_judge {r j : SlotRecord} {c : SlotCfg} {ms code : Nat} (h : r.judge c ms code = j) :
    (r.convert c ms code).quality = j.quality ∧ (r.convert c ms code).value = j.value ∧
      (r.convert c ms code).seeded = j.seeded ∧ (r.convert c ms code).suspect = j.suspect := by
  subst h
  exact ⟨rfl, rfl, rfl, rfl⟩

/-- A judgement that keeps the record leaves quality, value, seed and suspect timer as they are. -/
theorem convert_of_kept {r : SlotRecord} {c : SlotCfg} {ms code : Nat} {q : Quality} (h : r.judge c ms code = r)
    (hq : r.quality = q) :
    (r.convert c ms code).quality = q ∧ (r.convert c ms code).value = r.value ∧
      (r.convert c ms code).seeded = r.seeded ∧ (r.convert c ms code).suspect = r.suspect := by
  subst hq
  exact convert_of_judge h

end SlotRecord

namespace State

/-- The record at the sweep position once the next dwell has started. -/
theorem dwelt_record_same {s : State} (code : Nat) (order : SweepOrder) (n : Fin 16)
    (h : s.cfg.slots[s.sequencer.position].channel.isSome = true) :
    ((s.dwellEnds code order).startDwell n).sequencer.records[s.sequencer.position] =
      s.sequencer.records[s.sequencer.position].convert s.cfg.slots[s.sequencer.position] (seconds s.cfg.faultTimeS)
        code :=
  (congrArg (·[s.sequencer.position]) (s.dwellEnds_records code order)).trans (records_convertSlot_same code h)

/-- A slot without a channel keeps its record. -/
theorem dwelt_record_none {s : State} (code : Nat) (order : SweepOrder) (n : Fin 16)
    (h : s.cfg.slots[s.sequencer.position].channel = none) :
    ((s.dwellEnds code order).startDwell n).sequencer.records[s.sequencer.position] =
      s.sequencer.records[s.sequencer.position] :=
  congrArg (·[s.sequencer.position]) ((s.dwellEnds_records code order).trans
    (congrArg (·.sequencer.records) (convertSlot_of_none code h)))

theorem dwelt_record_ne (s : State) (code : Nat) (order : SweepOrder) (n : Fin 16) {j : Fin 16}
    (h : j ≠ s.sequencer.position) :
    ((s.dwellEnds code order).startDwell n).sequencer.records[j] = s.sequencer.records[j] :=
  (congrArg (·[j]) (s.dwellEnds_records code order)).trans (s.records_convertSlot_ne code h)

theorem dwelt_sensorFault {s : State} (code : Nat) (order : SweepOrder) (n : Fin 16)
    (h : s.cfg.slots[s.sequencer.position].channel.isSome = true) :
    ((s.dwellEnds code order).startDwell n).flag .sensorFault = ((s.dwellEnds code order).startDwell n).anyFault := by
  have flag : ((s.dwellEnds code order).startDwell n).flag .sensorFault = _ := s.dwellEnds_sensorFault code order
  rw [flag, flag_convertSlot code h]
  exact congrArg (fun v : Vector SlotRecord 16 => (List.finRange 16).any fun j => decide (v[j].quality = .fault))
    (s.dwellEnds_records code order).symm

/-- The dwell that starts is that of the slot now at the sweep position. -/
theorem dwelt_dwell (s : State) (code : Nat) (order : SweepOrder) :
    let t := ((s.dwellEnds code order).startDwell (nextSlot s.cfg s.sequencer.position)).chooseOffer
    t.sequencer.dwell = some s.cfg.slots[t.sequencer.position].dwell.ms := by
  intro t
  have next : t.sequencer.position = nextSlot s.cfg s.sequencer.position :=
    congrArg Sequencer.position (sequencer_chooseOffer _)
  have dwell : t.sequencer.dwell = some (s.dwellEnds code order).cfg.slots[nextSlot s.cfg s.sequencer.position].dwell.ms :=
    congrArg Sequencer.dwell (sequencer_chooseOffer _)
  rw [s.dwellEnds_cfg] at dwell
  simp only [next, dwell]

/-- Away from the stop slot: the conversion and the start of the next dwell. -/
theorem dwelt_changes_of_ne {s : State} (code : Nat) (order : SweepOrder) (n : Fin 16)
    (h : s.sequencer.position ≠ s.cfg.stopSlot) :
    Changes [.records, .sweep, .alert] [.flag .sensorFault] s
      ((s.dwellEnds code order).startDwell n).chooseOffer := by
  have converted : s.dwellEnds code order = s.convertSlot s.sequencer.position code := if_neg h
  rw [converted]
  have parts := s.convertSlot_only s.sequencer.position code
  exact Changes.of (parts.seq (startDwell_only _ n) (by decide) (by decide))
    ((s.convertSlot_notes _ code).trans ((startDwell_notes _ n).mono (by simp))) (parts .offer (by decide))

/-- At the stop slot: the conversion, the sweep end and the start of the next dwell. -/
theorem dwellEnds_of_stop {s : State} (code : Nat) (order : SweepOrder) (h : s.sequencer.position = s.cfg.stopSlot) :
    s.dwellEnds code order = (s.convertSlot s.sequencer.position code).sweepEnd order := if_pos h

theorem swept_only (s : State) (i n : Fin 16) (code : Nat) (order : SweepOrder) :
    Only (.records :: .sweep :: .offer :: sweepEndParts) s
      (((s.convertSlot i code).sweepEnd order).startDwell n).chooseOffer :=
  ((((s.convertSlot_only i code).mono (by decide)).trans ((sweepEnd_only _ order).mono (by decide))).trans
    ((startDwell_only _ n).mono (by decide))).trans ((chooseOffer_only _).mono (by decide))

theorem swept_notes (s : State) (i n : Fin 16) (code : Nat) (order : SweepOrder) :
    Notes (.flag .sensorFault :: sweepEndNotes) s
      (((s.convertSlot i code).sweepEnd order).startDwell n).chooseOffer := by
  have converted := (s.convertSlot_notes i code).mono (ms := .flag .sensorFault :: sweepEndNotes) (by simp)
  have swept := (sweepEnd_notes (s.convertSlot i code) order).mono (List.subset_cons_self (.flag .sensorFault) _)
  exact ((converted.trans swept).trans ((startDwell_notes _ n).mono (by simp))).trans ((chooseOffer_notes _).mono (by simp))

theorem startDwell_changes (s : State) (n : Fin 16) : Changes [.sweep] [] s (s.startDwell n).chooseOffer :=
  Changes.of ((startDwell_only s n).mono (by decide)) (startDwell_notes s n) rfl

/-- Outside LOADING the rule table evaluates its rules in rule order (R155). -/
theorem evaluateRules_of_station {s t : State} (h : t.startup.station = s.startup.station) :
    t.evaluateRules =
      if s.startup.station = .loading then t else (List.finRange 8).foldl (fun v n => v.evaluateRule n) t := by
  unfold evaluateRules
  rw [h]

end State

/-- Settles O10: the record by the table's rows, and at the stop slot the sweep end's users one after the other. -/
theorem dwellExpiryConvertsTheSlot : Obligations.DwellExpiryConvertsTheSlot := by
  intro code order s h
  refine ⟨_, State.execDwellExpiry_eq code order h, ⟨fun hc => ?_, fun hc => ?_⟩, fun j hj => ?_, fun hc => ?_, ?_, ?_,
    fun hi => State.dwelt_changes_of_ne code order _ hi, fun hi => ?_⟩
  · rw [State.sequencer_chooseOffer]
    exact State.dwelt_record_none code order _ hc
  · rw [State.sequencer_chooseOffer, State.dwelt_record_same code order _ hc]
    obtain ⟨warmUp, warmedUp⟩ := SlotRecord.judge_warmUp s.cfg.slots[s.sequencer.position] (seconds s.cfg.faultTimeS)
      s.sequencer.records[s.sequencer.position] code
    rw [← onRails_iff]
    exact ⟨warmUp, warmedUp, burdenOf_eq _ _ _,
      fun hq hw => SlotRecord.convert_of_kept (SlotRecord.judge_warming _ _ code hq hw) hq,
      fun hq hw hr => SlotRecord.convert_of_judge (SlotRecord.judge_seeds _ hr (.inr (.inr ⟨hq, hw⟩))),
      fun hq hw hr => SlotRecord.convert_of_judge (SlotRecord.judge_rails _ hr (.inr ⟨hq, hw⟩)),
      fun hq hr => SlotRecord.convert_of_judge (SlotRecord.judge_good _ hr hq),
      fun hq hr => SlotRecord.convert_of_judge (SlotRecord.judge_rails _ hr (.inl hq)),
      fun hq hr => SlotRecord.convert_of_judge (SlotRecord.judge_seeds _ hr (.inl hq)),
      fun hq hr => SlotRecord.convert_of_kept (SlotRecord.judge_rails_again _ hr (.inl hq)) hq,
      fun hq hr =>
        have ⟨quality, value, seeded, _⟩ := SlotRecord.convert_of_judge (SlotRecord.judge_seeds _ hr (.inr (.inl hq)))
        ⟨quality, value, seeded⟩,
      fun hq hr => SlotRecord.convert_of_kept (SlotRecord.judge_rails_again _ hr (.inr hq)) hq⟩
  · rw [State.sequencer_chooseOffer]
    exact s.dwelt_record_ne code order _ hj
  · rw [State.flag_chooseOffer, State.sequencer_chooseOffer]
    exact State.dwelt_sensorFault code order _ hc
  · rw [State.sequencer_chooseOffer]
    exact nextSlot_eq s.cfg s.sequencer.position
  · exact s.dwelt_dwell code order
  · rw [State.dwellEnds_of_stop code order hi]
    refine ⟨(s.swept_only _ _ code order).mono (by decide), s.swept_notes _ _ code order, ?_, ?_⟩
    · exact ((State.chooseOffer_only _) .detector (by decide)).trans (State.sweepEnd_detector _ order)
    · rw [State.sweepEnd_eq]
      have detected : Startup.station _ = _ := (s.convertSlot_only s.sequencer.position code).seq
        (State.detectorSweep_only _) (rs := .records :: State.detectorParts) (by decide) (by decide) .station (by decide)
      cases order with
      | rulesFirst =>
        dsimp only
        rw [← State.evaluateRules_of_station detected]
        exact State.startDwell_changes _ _
      | mixFirst =>
        have mixed : Startup.station _ = _ :=
          State.computeMix_only (s.convertSlot s.sequencer.position code).detectorSweep false .station (by decide)
        dsimp only
        rw [← State.evaluateRules_of_station (mixed.trans detected)]
        exact State.startDwell_changes _ _

end Sys2Proof.Machine
end

section
/-! PROOFS. The owners' lists (O58): their capacities, the order of the plume records, and the PLUME state. -/

namespace Sys2Proof.Machine

open Sys2Proof

/-! ## Demand list and reading lists -/

/-- The demand list and the reading lists are within their capacities (R24, R93). -/
structure EntriesBounded (s : State) : Prop where
  demands : s.demands.entries.length ≤ 16
  readings : ReadingsBounded s.peers

theorem EntriesBounded.of_only {ps : List Part} {s t : State} (h : EntriesBounded s) (only : Only ps s t)
    (hd : Part.demands ∉ ps := by decide) (hp : Part.peers ∉ ps := by decide) : EntriesBounded t :=
  have demands : t.demands = s.demands := only .demands hd
  have peers : t.peers = s.peers := only .peers hp
  ⟨demands ▸ h.demands, peers ▸ h.readings⟩

theorem Act.keeps_entries {s t : State} (a : Act s t) (h : EntriesBounded s) : EntriesBounded t := by
  induction a with
  | refl => exact h
  | trans _ _ first second => exact second (first h)
  | quiet only => exact h.of_only only
  | flag s f b => exact h.of_only (s.writeFlag_only f b)
  | post s box f => exact h.of_only (s.post_only box f)
  | answer s held => exact h.of_only (s.hold_only .answer held)
  | list s l bound => exact ⟨bound h.demands, h.readings⟩
  | peers s v bound => exact ⟨h.demands, bound h.readings⟩
  | reselect s => exact h.of_only s.reselect_only
  | rederive s => exact h.of_only s.rederive_only
  | setSafe s q => exact h.of_only (s.setSafe_only q)
  | dropRemote s => exact h.of_only s.dropRemote_only
  | computeMix s afresh => exact h.of_only (s.computeMix_only afresh)
  | rule s n r => exact (h.of_only (s.setRule_only n r)).of_only (State.writeFlag_only _ _ _)
  | tally s n r => exact h.of_only (s.setRule_only n r)

theorem readingsBounded_reset : ReadingsBounded resetPeers := by
  intro n i present
  rw [resetPeers, tabulate_get] at present
  cases present

theorem State.linkCleared_only (s : State) (f : Frame) :
    Only (.offer :: .abandoned :: .queue :: .guard :: .interval :: .boxes :: scoreParts) s (s.linkCleared f) := by
  have counted : Only noteParts s (if s.transmit.boxes.supersedes .answer then s.count .superseded else s) :=
    Only.ite (s.count_only _) (Only.refl _ _)
  have inside : noteParts ⊆ .offer :: .abandoned :: .queue :: .guard :: .interval :: .boxes :: scoreParts := by decide
  intro p hp
  have kept := counted p fun h => hp (inside h)
  cases p <;> first | rfl | exact kept | exact absurd (by decide) hp

theorem Does.keeps_entries {s t : State} (d : Does s t) (h : EntriesBounded s) : EntriesBounded t := by
  induction d with
  | act a => exact a.keeps_entries h
  | trans _ _ first second => exact second (first h)
  | choose s => exact h.of_only s.chooseOffer_only
  | powerOn s => exact ⟨Nat.zero_le _, readingsBounded_reset⟩
  | fullReset s => exact ⟨Nat.zero_le _, readingsBounded_reset⟩
  | safeCodes s => exact (h.of_only (s.setRegime_only .safe)).of_only (State.takeTargets_only _ _ _)
  | steps s n => exact h.of_only (s.putChannel_only n _)
  | scoreSent s => exact h.of_only s.scoreSent_only
  | scoreFailed s => exact h.of_only s.scoreFailed_only
  | linkReset s f =>
    exact ((h.of_only (s.linkCleared_only f)).of_only (State.writeFlag_only _ _ _)).of_only (State.writeFlag_only _ _ _)
  | dequeue | pins | joins | runs | conflict | removes | keeps | abandons | score | withdrawalEnds | queue | mark =>
    exact ⟨h.demands, h.readings⟩

theorem PeerEntry.tick_readings {e : PeerEntry} {i : PeerInfo} (h : e.tick.presence = .present i) :
    ∃ j, e.presence = .present j ∧ i.readings = j.readings.map Reading.tick := by
  unfold PeerEntry.tick at h
  split at h
  · next absent => rw [absent] at h; cases h
  · next silent => rw [silent] at h; cases h
  · next j present => cases h; exact ⟨j, present, rfl⟩

theorem State.tick_keeps_entries {s : State} (h : EntriesBounded s) : EntriesBounded s.tick := by
  refine ⟨?_, fun n i present => ?_⟩
  · show (s.demands.entries.map DemandEntry.tick).length ≤ 16
    rw [List.length_map]
    exact h.demands
  · have entry : s.tick.peers[n] = s.peers[n].tick := mapVector_get PeerEntry.tick s.peers n
    rw [entry] at present
    obtain ⟨j, before, ticked⟩ := PeerEntry.tick_readings present
    rw [ticked, List.length_map]
    exact h.readings n j before

/-! ## What an event keeps of the timeline -/

/-- The conditions of the timeline, each kept by itself. -/
structure TimelineKept (s t : State) : Prop where
  bounded : s.timeline.records.length ≤ 12 → t.timeline.records.length ≤ 12
  ordered : RecordsOrdered s → RecordsOrdered t
  follows : PlumeFollows s → PlumeFollows t

/-- No record is ARMED or ENGULFED. -/
theorem State.plumeCount_eq_zero {s : State} : s.plumeCount = 0 ↔ ∀ r ∈ s.timeline.records, r.holds = false := by
  simp [State.plumeCount]

theorem State.plumeCount_congr {s t : State} (h : t.timeline.records = s.timeline.records) :
    t.plumeCount = s.plumeCount := by
  unfold State.plumeCount
  rw [h]

namespace TimelineKept

theorem refl (s : State) : TimelineKept s s := ⟨id, id, id⟩

theorem trans {s t u : State} (h : TimelineKept s t) (k : TimelineKept t u) : TimelineKept s u :=
  ⟨k.bounded ∘ h.bounded, k.ordered ∘ h.ordered, k.follows ∘ h.follows⟩

theorem ite {s t u : State} {c : Prop} [Decidable c] (h : TimelineKept s t) (k : TimelineKept s u) :
    TimelineKept s (if c then t else u) := by split <;> assumption

theorem of_same {s t : State} (records : t.timeline.records = s.timeline.records)
    (hold : t.timeline.hold = s.timeline.hold) : TimelineKept s t := by
  refine ⟨fun h => by rw [records]; exact h, fun h => ?_, fun h => ?_⟩
  · unfold RecordsOrdered at *
    rw [records]
    exact h
  · unfold PlumeFollows at *
    rw [hold, State.plumeCount_congr records]
    exact h

/-- An update that touches neither the records nor the PLUME state. -/
theorem of {ps : List Part} {s t : State} (only : Only ps s t) (hr : Part.plumes ∉ ps := by decide)
    (hh : Part.plumeHold ∉ ps := by decide) : TimelineKept s t :=
  have ⟨records, _⟩ := only .plumes hr
  have ⟨hold, _⟩ := only .plumeHold hh
  of_same records hold

/-- A timeline without records whose PLUME state is not HELD, as a reset leaves it. -/
theorem emptied {s t : State} (records : t.timeline.records = []) (hold : t.timeline.hold ≠ .held) :
    TimelineKept s t := by
  refine ⟨fun _ => by rw [records]; exact Nat.zero_le _, fun _ => ?_, fun _ => ?_⟩
  · unfold RecordsOrdered
    rw [records]
    exact List.Pairwise.nil
  · have none : t.plumeCount = 0 := State.plumeCount_eq_zero.mpr (by simp [records])
    unfold PlumeFollows
    rw [none]
    simp [hold]

theorem coldReset (s : State) : TimelineKept s s.coldReset := emptied rfl (by rw [State.coldReset]; nofun)

end TimelineKept

/-! ## The judgement of the PLUME state (R84) -/

namespace State

@[simp] theorem timeline_bump (s : State) (c : Counter) (n : Nat) : (s.bump c n).timeline = s.timeline := by
  unfold bump
  dsimp only
  split <;> rfl

@[simp] theorem timeline_count (s : State) (c : Counter) : (s.count c).timeline = s.timeline := s.timeline_bump c 1

theorem raisePlume_hold (s : State) : s.raisePlume.timeline.hold = .held := by
  have ⟨hold, _⟩ := raiseLocal_only ((s.setHold .held none).count .plumeClosures) 0 .recirc
    s.cfg.timeline.plumeLevel .plumeHold (by decide)
  exact hold.trans (congrArg Timeline.hold (timeline_count _ _))

theorem withdrawPlume_hold (s : State) : s.withdrawPlume.timeline.hold = .off := by
  have ⟨hold, _⟩ := withdrawLocal_only (s.setHold .off none) 0 .plumeHold (by decide)
  exact hold

theorem startPostHold_hold (s : State) : s.startPostHold.timeline.hold ≠ .held := by
  unfold startPostHold
  split
  · rw [withdrawPlume_hold]
    nofun
  · nofun

/-- The PLUME state after the beginnings of R84: OFF and POST_HOLD become HELD when a record became ARMED or ENGULFED. -/
def beginHold (s : State) (became : Bool) : State :=
  match s.timeline.hold with
  | .off => if became then s.raisePlume else s
  | .postHold => if became then s.setHold .held none else s
  | .held => s

theorem judgePlume_eq (s : State) (became : Bool) : s.judgePlume became =
    if (s.beginHold became).timeline.hold = .held ∧ (s.beginHold became).plumeCount = 0 then
      (s.beginHold became).startPostHold
    else s.beginHold became := rfl

theorem beginHold_held_iff (s : State) (became : Bool) :
    (s.beginHold became).timeline.hold = .held ↔ s.timeline.hold = .held ∨ became = true := by
  unfold beginHold
  split
  · next off => cases became <;> simp [off, raisePlume_hold]
  · next post => cases became <;> simp [post]
  · next held => simp [held]

theorem beginHold_only (s : State) (became : Bool) : Only (.plumeHold :: listParts) s (s.beginHold became) := by
  unfold beginHold
  split
  · exact Only.ite (raisePlume_only _) (Only.refl _ _)
  · exact Only.ite ((setHold_only _ _ _).mono (by decide)) (Only.refl _ _)
  · exact Only.refl _ _

theorem judgePlume_records (s : State) (became : Bool) :
    (s.judgePlume became).timeline.records = s.timeline.records := (s.judgePlume_only became .plumes (by decide)).1

/-- The judgement makes the PLUME state follow the records, when a record that holds the intake shut while the state is not
HELD is announced as having become so. -/
theorem judgePlume_follows {s : State} {became : Bool}
    (h : s.timeline.hold ≠ .held → became = false → s.plumeCount = 0) : PlumeFollows (s.judgePlume became) := by
  have count : (s.beginHold became).plumeCount = s.plumeCount :=
    plumeCount_congr (s.beginHold_only became .plumes (by decide)).1
  have held := s.beginHold_held_iff became
  rw [judgePlume_eq]
  unfold PlumeFollows
  split
  · next ends =>
    have none : (s.beginHold became).startPostHold.plumeCount = 0 :=
      (plumeCount_congr (startPostHold_only _ .plumes (by decide)).1).trans ends.2
    rw [none]
    simp [startPostHold_hold]
  · next stays =>
    by_cases begun : (s.beginHold became).timeline.hold = .held
    · have some : (s.beginHold became).plumeCount ≠ 0 := fun zero => stays ⟨begun, zero⟩
      exact iff_of_true begun (Nat.pos_of_ne_zero some)
    · have before := not_or.mp (mt held.mpr begun)
      have none := h before.1 (Bool.eq_false_iff.mpr before.2)
      rw [count, none]
      exact iff_of_false begun (Nat.lt_irrefl 0)

end State

/-- An event of the timeline that ends with the judgement: what has to be shown of the state `u` before it. -/
theorem TimelineKept.judged {s u : State} {became : Bool} (hold : u.timeline.hold = s.timeline.hold)
    (bounded : s.timeline.records.length ≤ 12 → u.timeline.records.length ≤ 12)
    (ordered : RecordsOrdered s → RecordsOrdered u)
    (announced : became = false → s.plumeCount = 0 → u.plumeCount = 0) : TimelineKept s (u.judgePlume became) := by
  refine ⟨fun h => ?_, fun h => ?_, fun h => State.judgePlume_follows fun notHeld none => announced none ?_⟩
  · rw [State.judgePlume_records]
    exact bounded h
  · unfold RecordsOrdered
    rw [State.judgePlume_records]
    exact ordered h
  · rw [hold] at notHeld
    exact Nat.eq_zero_of_not_pos fun some => notHeld (h.mpr some)

/-! ## The records under the timeline's operations -/

namespace PlumeRecord

theorem refine_keeps (c : Cfg) (m : Sight) (r : PlumeRecord) :
    (r.refine c m).df = r.df ∧ (r.refine c m).created = r.created ∧ (r.refine c m).phase = r.phase := by
  unfold refine
  split
  · exact ⟨rfl, rfl, rfl⟩
  · exact ⟨rfl, rfl, rfl⟩
  all_goals split <;> exact ⟨rfl, rfl, rfl⟩

/-- The refinement by a SIGHT: the record of its key is refined, every other stays. -/
def refineKeyed (c : Cfg) (m : Sight) (r : PlumeRecord) : PlumeRecord :=
  if r.hasKey m.origin m.sequence then r.refine c m else r

theorem refineKeyed_keeps (c : Cfg) (m : Sight) (r : PlumeRecord) : (r.refineKeyed c m).df = r.df ∧
    (r.refineKeyed c m).created = r.created ∧ (r.refineKeyed c m).phase = r.phase := by
  unfold refineKeyed
  split
  · exact r.refine_keeps c m
  · exact ⟨rfl, rfl, rfl⟩

/-- The record after a loss notice: an APPROACHING one is ARMED (R82). -/
def lost (r : PlumeRecord) : PlumeRecord := if r.phase = .approaching then { r with phase := .armed } else r

theorem lost_keeps (r : PlumeRecord) : r.lost.df = r.df ∧ r.lost.created = r.created := by
  unfold lost
  split <;> exact ⟨rfl, rfl⟩

theorem arm_keeps (lead : Nat) (r : PlumeRecord) : (r.arm lead).df = r.df ∧ (r.arm lead).created = r.created := by
  unfold arm
  split <;> exact ⟨rfl, rfl⟩

theorem holds_eq_false {r : PlumeRecord} : r.holds = false ↔ r.phase = .approaching := by
  unfold holds
  cases r.phase <;> simp

theorem advance_phase (d : Nat) (r : PlumeRecord) : (r.advance d).phase = .engulfed ∨ (r.advance d).phase = r.phase := by
  unfold advance
  dsimp only
  split
  · exact .inr rfl
  · split
    · exact .inl rfl
    · exact .inr rfl

theorem backUp_phase (d : Nat) (r : PlumeRecord) : (r.backUp d).phase = r.phase := by
  unfold backUp
  dsimp only
  split <;> rfl

end PlumeRecord

theorem dropPassed_sublist (l : List PlumeRecord) : (dropPassed l).Sublist l := List.filter_sublist

theorem mem_insertRecord {r x : PlumeRecord} {l : List PlumeRecord} : x ∈ insertRecord r l ↔ x = r ∨ x ∈ l := by
  rw [(insertRecord_perm r l).mem_iff, List.mem_cons]

theorem movedRecords_length (d : Nat) (back : Bool) (l : List PlumeRecord) :
    (movedRecords d back l).length = l.length := by
  unfold movedRecords
  split
  · rfl
  · split <;> rw [(sortRecords_perm _).length_eq, List.length_map]

theorem movedRecords_ordered (d : Nat) (back : Bool) {l : List PlumeRecord} (h : l.Pairwise InOrder) :
    (movedRecords d back l).Pairwise InOrder := by
  unfold movedRecords
  split
  · exact h
  · split <;> exact sortRecords_ordered _

/-- A moved record is ENGULFED, or its phase is that of a record before the move. -/
theorem movedRecords_phase {d : Nat} {back : Bool} {l : List PlumeRecord} {r : PlumeRecord}
    (h : r ∈ movedRecords d back l) : r.phase = .engulfed ∨ ∃ x ∈ l, r.phase = x.phase := by
  unfold movedRecords at h
  split at h
  · exact .inr ⟨r, h, rfl⟩
  · split at h <;> rw [(sortRecords_perm _).mem_iff] at h <;> obtain ⟨x, hx, rfl⟩ := List.mem_map.mp h
    · exact .inr ⟨x, hx, x.backUp_phase d⟩
    · exact (x.advance_phase d).imp_right fun same => ⟨x, hx, same⟩

theorem engulfedCount_eq_zero {l : List PlumeRecord} : engulfedCount l = 0 ↔ ∀ r ∈ l, r.phase ≠ .engulfed := by
  simp [engulfedCount]

/-- Records that were all APPROACHING are so after a move that engulfs none. -/
theorem movedRecords_approaching {d : Nat} {back : Bool} {l : List PlumeRecord}
    (before : ∀ r ∈ l, r.phase = .approaching) (none : engulfedCount (movedRecords d back l) ≤ engulfedCount l) :
    ∀ r ∈ movedRecords d back l, r.phase = .approaching := by
  have zero : engulfedCount l = 0 := engulfedCount_eq_zero.mpr fun r hr => by rw [before r hr]; nofun
  have free := engulfedCount_eq_zero.mp (Nat.le_zero.mp (zero ▸ none))
  intro r hr
  rcases movedRecords_phase hr with engulfed | ⟨x, hx, same⟩
  · exact absurd engulfed (free r hr)
  · exact same.trans (before x hx)

theorem arm_of_not_anyArms {lead : Nat} {l : List PlumeRecord} (h : anyArms lead l = false) {r : PlumeRecord}
    (hr : r ∈ l) : r.arm lead = r := by
  have far := List.any_eq_false.mp h r hr
  unfold PlumeRecord.arm
  exact if_neg (by simpa using far)

theorem dropCandidate_mem {l : List PlumeRecord} {v : PlumeRecord} (h : dropCandidate l = some v) : v ∈ l := by
  induction l generalizing v with
  | nil => cases h
  | cons x xs ih =>
    unfold dropCandidate at h
    split at h
    · split at h
      · cases h; exact List.mem_cons_self
      · cases h
    · next y hy =>
      split at h
      · cases h; exact List.mem_cons_self
      · cases h; exact List.mem_cons_of_mem _ (ih hy)

/-! ## The timeline's events -/

namespace TimelineKept

theorem refineSight (s : State) (r : PlumeRecord) (m : Sight) : TimelineKept s (s.refineSight r m) := by
  let refined := s.setRecords (dropPassed (s.timeline.records.map (PlumeRecord.refineKeyed s.cfg m)))
  have sub := dropPassed_sublist (s.timeline.records.map (PlumeRecord.refineKeyed s.cfg m))
  have counted : (if r.isDuplicate m then refined.count .duplicates else refined).timeline = refined.timeline := by
    split
    · exact State.timeline_count _ _
    · rfl
  show TimelineKept s (State.judgePlume (if r.isDuplicate m then refined.count .duplicates else refined) false)
  refine judged (by rw [counted]; rfl) (fun h => ?_) (fun h => ?_) fun _ none => ?_
  · rw [counted]
    exact (sub.length_le.trans (List.length_map _).le).trans h
  · unfold RecordsOrdered
    rw [counted]
    refine List.Pairwise.sublist sub (map_ordered _ (fun x => ?_) h)
    exact ⟨(x.refineKeyed_keeps s.cfg m).1, (x.refineKeyed_keeps s.cfg m).2.1⟩
  · rw [State.plumeCount_eq_zero] at none ⊢
    rw [counted]
    intro x hx
    obtain ⟨y, hy, rfl⟩ := List.mem_map.mp (sub.subset hx)
    rw [PlumeRecord.holds_eq_false, (y.refineKeyed_keeps s.cfg m).2.2, ← PlumeRecord.holds_eq_false]
    exact none y hy

/-- A record created where room has been made in the timeline of `s`. -/
theorem createRecord {s u : State} (m : Sight) (o : Int) (hold : u.timeline.hold = s.timeline.hold)
    (kept : u.timeline.records.Sublist s.timeline.records)
    (room : s.timeline.records.length ≤ 12 → u.timeline.records.length < 12) :
    TimelineKept s (u.createRecord m o) := by
  have sub := dropPassed_sublist (insertRecord (u.newRecord m o) u.timeline.records)
  unfold State.createRecord
  refine judged (by rw [State.timeline_count]; exact hold) (fun h => ?_) (fun h => ?_) fun became none => ?_
  · rw [State.timeline_count]
    refine sub.length_le.trans ?_
    rw [(insertRecord_perm _ _).length_eq]
    exact room h
  · unfold RecordsOrdered
    rw [State.timeline_count]
    exact List.Pairwise.sublist sub (insertRecord_ordered _ _ (List.Pairwise.sublist kept h))
  · rw [State.plumeCount_eq_zero] at none ⊢
    rw [State.timeline_count]
    intro x hx
    rcases mem_insertRecord.mp (sub.subset hx) with rfl | old
    · exact became
    · exact none x (kept.subset old)

theorem dropSight (s : State) : TimelineKept s s.dropSight :=
  (of (s.count_only _)).trans (of (State.writeFlag_only _ _ _))

theorem admitSight (s : State) (m : Sight) (o : Int) : TimelineKept s (s.admitSight m o) := by
  unfold State.admitSight
  split
  · next room => exact createRecord m o rfl (List.Sublist.refl _) fun _ => room
  · split
    · exact dropSight s
    · next v candidate =>
      refine ite (createRecord m o (by rw [State.timeline_count]; rfl) ?_ fun h => ?_) (dropSight s)
      · rw [State.timeline_count]
        exact List.filter_sublist
      · rw [State.timeline_count]
        refine Nat.lt_of_lt_of_le (List.length_filter_lt_length_iff_exists.mpr ⟨v, dropCandidate_mem candidate, ?_⟩) h
        simp [PlumeRecord.hasKey]

theorem takeSight (s : State) (m : Sight) : TimelineKept s (s.takeSight m) := by
  unfold State.takeSight
  split
  · exact of (s.count_only _)
  · refine ite (of (s.count_only _)) ?_
    split
    · exact refineSight s _ m
    · exact admitSight s m _

theorem timelineTravel (s : State) (delta : Nat) (back : Bool) (speed : Nat) :
    TimelineKept s (s.timelineTravel delta back speed) := by
  unfold State.timelineTravel
  refine ite (refl s) ?_
  dsimp only
  generalize hm : movedRecords delta back s.timeline.records = moved
  generalize hk : (if back && decide (delta ≠ 0) then moved.filter fun r => !r.leftBehind s.cfg else moved) = keptRecords
  have sub : (dropPassed keptRecords).Sublist moved := by
    refine (dropPassed_sublist _).trans ?_
    rw [← hk]
    split
    · exact List.filter_sublist
    · exact List.Sublist.refl _
  refine judged (by rw [State.timeline_bump]) (fun h => ?_) (fun h => ?_) fun became none => ?_
  · rw [State.timeline_bump, List.length_map]
    refine (sub.length_le.trans_eq ?_).trans h
    rw [← hm, movedRecords_length]
  · unfold RecordsOrdered
    rw [State.timeline_bump]
    refine map_ordered _ (PlumeRecord.arm_keeps _) (List.Pairwise.sublist sub ?_)
    rw [← hm]
    exact movedRecords_ordered delta back h
  · obtain ⟨engulfs, arms⟩ := Bool.or_eq_false_iff.mp became
    rw [State.plumeCount_eq_zero] at none ⊢
    have before : ∀ r ∈ s.timeline.records, r.phase = .approaching :=
      fun r hr => PlumeRecord.holds_eq_false.mp (none r hr)
    have after := movedRecords_approaching before (by rw [hm]; exact Nat.le_of_not_lt (of_decide_eq_false engulfs))
    rw [State.timeline_bump]
    intro x hx
    obtain ⟨y, hy, rfl⟩ := List.mem_map.mp hx
    rw [arm_of_not_anyArms arms hy, PlumeRecord.holds_eq_false]
    exact after y (hm ▸ sub.subset hy)

theorem timelineLoss (s : State) : TimelineKept s s.timelineLoss := by
  unfold State.timelineLoss
  refine ite (refl s) (judged rfl (fun h => ?_) (fun h => map_ordered _ PlumeRecord.lost_keeps h) fun became none => ?_)
  · exact (List.length_map _).trans_le h
  · rw [State.plumeCount_eq_zero] at none ⊢
    intro x hx
    obtain ⟨y, hy, rfl⟩ := List.mem_map.mp hx
    have approaching := PlumeRecord.holds_eq_false.mp (none y hy)
    exact absurd (decide_eq_true approaching) (List.any_eq_false.mp became y hy)

theorem approachCap (s : State) (origin : Fin 8) (sequence : Nat) :
    TimelineKept s ((s.setRecords (sortRecords (s.timeline.records.map fun x =>
      if x.hasKey origin sequence then x.engulf else x))).judgePlume true) := by
  refine judged rfl (fun h => ?_) (fun _ => sortRecords_ordered _) nofun
  exact ((sortRecords_perm _).length_eq.trans (List.length_map _)).trans_le h

theorem engulfCap (s : State) (origin : Fin 8) (sequence : Nat) :
    TimelineKept s (((s.setRecords (s.timeline.records.filter fun x => !x.hasKey origin sequence)).count
      .capped).judgePlume false) := by
  have sub : (s.timeline.records.filter fun x => !x.hasKey origin sequence).Sublist s.timeline.records :=
    List.filter_sublist
  refine judged (by rw [State.timeline_count]; rfl) (fun h => ?_) (fun h => ?_) fun _ none => ?_
  · rw [State.timeline_count]
    exact sub.length_le.trans h
  · unfold RecordsOrdered
    rw [State.timeline_count]
    exact List.Pairwise.sublist sub h
  · rw [State.plumeCount_eq_zero] at none ⊢
    rw [State.timeline_count]
    exact fun x hx => none x (sub.subset hx)

/-- The end of the post-hold: with no record ARMED or ENGULFED, OFF follows the records as POST_HOLD does. -/
theorem withdrawPlume {s : State} (h : s.timeline.hold ≠ .held) : TimelineKept s s.withdrawPlume := by
  have records : s.withdrawPlume.timeline.records = s.timeline.records := (s.withdrawPlume_only .plumes (by decide)).1
  refine ⟨fun k => by rw [records]; exact k, fun k => ?_, fun k => ?_⟩
  · unfold RecordsOrdered
    rw [records]
    exact k
  · unfold PlumeFollows at *
    rw [State.plumeCount_congr records, ← k, s.withdrawPlume_hold]
    exact iff_of_false nofun h

theorem resetTimelineRecords (s : State) : TimelineKept s s.resetTimelineRecords := by
  unfold State.resetTimelineRecords
  refine ite (refl s) ?_
  split
  · next off => exact emptied rfl (by rw [show (s.setRecords []).timeline.hold = .off from off]; nofun)
  · refine emptied ((s.setRecords []).withdrawPlume_only .plumes (by decide)).1 ?_
    rw [State.withdrawPlume_hold]
    nofun

end TimelineKept

end Sys2Proof.Machine
end

section
/-! PROOFS. Every step keeps the owners' lists (O58): the commands at the timeline, one by one. -/

namespace Sys2Proof.Machine

open Sys2Proof

namespace TimelineKept

theorem dequeue (s : State) : TimelineKept s s.dequeue := of s.dequeue_only

theorem foldl {α : Type} {f : State → α → State} (h : ∀ s a, TimelineKept s (f s a)) (l : List α) (s : State) :
    TimelineKept s (l.foldl f s) := by
  induction l generalizing s with
  | nil => exact refl s
  | cons a as ih => exact (h s a).trans (ih (f s a))

/-! ## The travel tracker -/

theorem travelNotice (s : State) (d : Nat) (m : Travel) : TimelineKept s (s.travelNotice d m) :=
  (of (s.detectorTravel_only d m.reverse)).trans (timelineTravel _ _ _ _)

theorem ignitionNotice (s : State) (b : Bool) : TimelineKept s (s.ignitionNotice b) := of (s.ignitionNotice_only b)

theorem trackerFollows (s : State) (n : Fin 8) (m : Travel) (d : Nat) (order : TravelOrder) :
    TimelineKept s (s.trackerFollows n m d order) := by
  have followed : TimelineKept s (s.setTracker (Tracker.follow s.cfg n m)) := of (s.setTracker_only _)
  cases order with
  | noticeFirst => exact (followed.trans (travelNotice _ d m)).trans (ignitionNotice _ _)
  | ignitionFirst => exact (followed.trans (ignitionNotice _ _)).trans (travelNotice _ d m)

theorem trackerHears (s : State) (n : Fin 8) (m : Travel) (order : TravelOrder) :
    TimelineKept s (s.trackerHears n m order) := by
  unfold State.trackerHears
  exact ite (of (s.setTracker_only _)) (ite (trackerFollows s n m _ order)
    (((of (s.count_only _)).trans (of (State.writeFlag_only _ _ _))).trans (trackerFollows _ n m 0 order)))

theorem trackerResyncs (s : State) (n : Fin 8) (m : Travel) (order : TravelOrder) :
    TimelineKept s (s.trackerResyncs n m order) :=
  ((of (s.writeFlag_only _ _)).trans (of (State.detectorLost_only _ _))).trans (trackerFollows _ n m 0 order)

theorem trackerTakes (s : State) (n : Fin 8) (m : Travel) (order : TravelOrder) :
    TimelineKept s (s.trackerTakes n m order) := by
  unfold State.trackerTakes
  split
  · exact trackerResyncs s n m order
  · exact trackerResyncs s n m order
  · exact trackerFollows s n m 0 order
  · exact ite (trackerHears s n m order) (ite (trackerFollows s n m 0 order) (of (s.count_only _)))

/-! ## Start-up and link -/

theorem setForceMember (s : State) (b : Bool) : TimelineKept s (s.setForceMember b) := of (s.setSafe_only _)

theorem inletJoins (s : State) : TimelineKept s s.inletJoins := by
  have safeCodes : TimelineKept s
      (({ s with regime := .safe } : State).takeTargets s.cfg.mix.safeDamper s.cfg.mix.safeBlower) :=
    (of (s.setRegime_only .safe)).trans (of (State.takeTargets_only _ _ _))
  have forced := ite (c := s.forceRequest = true)
    (safeCodes.trans (setForceMember _ true)) safeCodes
  have recirc := ite (c := s.recircSwitch = true)
    (forced.trans (of (State.raiseLocal_only _ 2 .recirc s.cfg.driverLevel))) forced
  exact ite (recirc.trans (of (State.raiseLocal_only _ 3 .flush s.cfg.driverLevel))) recirc

theorem enterJoining (s : State) : TimelineKept s s.enterJoining := by
  have started : TimelineKept s s.startBlocks := of_same rfl rfl
  exact (ite (started.trans (inletJoins _)) started).trans (of (State.post_only _ _ _))

theorem enterRunning (s : State) : TimelineKept s s.enterRunning := by
  have running : TimelineKept s { s with startup := { s.startup with station := .running, joining := none } } :=
    of_same rfl rfl
  exact ite (running.trans (of (State.rederive_only _))) (running.trans (of (State.emittersTake_only _)))

theorem enterConflict (s : State) : TimelineKept s s.enterConflict := by
  have quiet : TimelineKept s (s.quiet.setFlag .conflict) := of_same rfl rfl
  exact ite (coldReset s) (quiet.trans (of (State.setSafe_only _ _)))

theorem receiveFrame (s : State) (f : Frame) : TimelineKept s (s.receiveFrame f) := by
  unfold State.receiveFrame
  exact ite (ite (refl s) (enterConflict s)) (of (s.filterFrame_only f))

theorem scoreInLoading {s t : State} (n : Nat) (only : Only noteParts s t) :
    TimelineKept s (s.scoreInLoading t n) :=
  of (State.scoreInLoading_only (ps := [.counters]) n (only.mono (by decide)))

theorem resetIf {s t : State} (h : TimelineKept s t) (due : Bool) : TimelineKept s (t.resetIf due) :=
  ite (h.trans (coldReset t)) h

theorem resetLink (s : State) (f : Frame) : TimelineKept s (s.resetLink f) := by
  have cleared : TimelineKept s (((s.linkCleared f).clearFlag .linkPassive).clearFlag .linkWithdrawn) :=
    ((of (s.linkCleared_only f)).trans (of (State.writeFlag_only _ _ _))).trans (of (State.writeFlag_only _ _ _))
  exact ite (coldReset s) (cleared.trans (of (State.endPeerStretch_only _)))

theorem answered (s : State) (f : Frame) (status : Nat) : TimelineKept s (s.answer f status) :=
  of (s.answer_only f status)

theorem acceptResetAll (s : State) (f : Frame) : TimelineKept s (s.acceptResetAll f) := by
  have marked : TimelineKept s { s with startup := { s.startup with pendingReset := true } } := of_same rfl rfl
  exact ite (coldReset s) (ite (of (s.hold_only _ _)) (marked.trans (of (State.hold_only _ _ _))))

theorem unlessMoving {s : State} {f : Frame} {act : State → Frame → State} (h : TimelineKept s (act s f)) :
    TimelineKept s (s.unlessMoving f act) := ite (answered s f _) h

end TimelineKept

/-! ## The commands -/

/-- A command with this outcome keeps the conditions of the timeline. -/
def KeepsTimeline (s : State) (o : Host.Outcome State Fault Refusal) : Prop := ∀ t, o = .next t → TimelineKept s t

namespace KeepsTimeline

theorem ends {s t : State} (h : TimelineKept s t) : KeepsTimeline s (finish t) := by
  intro u e
  cases e
  exact h.trans (.of t.chooseOffer_only)

theorem same (s : State) : KeepsTimeline s (finish s) := ends (.refl s)

/-- A command that ends with an update of other parts. -/
theorem of {ps : List Part} {s t : State} (only : Only ps s t) (hr : Part.plumes ∉ ps := by decide)
    (hh : Part.plumeHold ∉ ps := by decide) : KeepsTimeline s (finish t) := ends (.of only hr hh)

theorem took {s t : State} (h : TimelineKept s.dequeue t) : KeepsTimeline s (finish t) :=
  ends ((TimelineKept.dequeue s).trans h)

theorem ite {s : State} {a b : Host.Outcome State Fault Refusal} {c : Prop} [Decidable c] (h : KeepsTimeline s a)
    (k : KeepsTimeline s b) : KeepsTimeline s (if c then a else b) := by split <;> assumption

/-- A command that waits for its timer, or for another condition. -/
theorem whenever {s : State} {a : Host.Outcome State Fault Refusal} {c : Prop} [Decidable c] (h : KeepsTimeline s a) :
    KeepsTimeline s (if c then a else finish s) := ite h (same s)

/-- A command at the head of the receive queue. -/
theorem head {s : State} {kind : Nat} {a : Frame → Host.Outcome State Fault Refusal} (h : ∀ f, KeepsTimeline s (a f)) :
    KeepsTimeline s (match s.headOf kind with
      | .none => finish s
      | some f => a f) := by
  split
  · exact same s
  · exact h _

theorem serve {s : State} {r : Request} {act : State → Frame → State}
    (h : ∀ f, TimelineKept s.dequeue (act s.dequeue f)) : KeepsTimeline s (s.serve r act) := by
  unfold State.serve
  split
  · exact same s
  · exact ite (took (h _)) (took (.refl _))

theorem postHoldExpiry (s : State) : KeepsTimeline s (execPostHoldExpiry s) := by
  unfold execPostHoldExpiry
  split
  · next h => exact ends (.withdrawPlume (by rw [h.1]; nofun))
  · exact same s

theorem sent (s : State) : KeepsTimeline s (execSent s) := by
  unfold execSent
  split
  · next rest _ =>
    have gone : TimelineKept s (s.setAbandoned rest) := .of (s.setAbandoned_only rest)
    refine ite (ends (gone.trans (.scoreInLoading _ (State.countSent_only _ _)))) (ends ?_)
    exact (gone.trans (.of (State.countSent_only _ _))).trans (.of (State.scoreSent_only _))
  · have settled : TimelineKept s (s.settleOffer s.transmit.boxes.removeOffered) := .of_same rfl rfl
    exact ends (((settled.trans (.of (State.countSent_only _ _))).trans (.of (State.scoreSent_only _))).resetIf _)
  · exact same s

theorem arbitrationLost (s : State) : KeepsTimeline s (execArbitrationLost s) := by
  unfold execArbitrationLost
  split
  · exact of (s.setAbandoned_only _)
  · have settled : TimelineKept s (s.settleOffer s.transmit.boxes.keepOffered) := .of_same rfl rfl
    exact ends (settled.resetIf _)
  · exact same s

theorem failed (s : State) : KeepsTimeline s (execFailed s) := by
  unfold execFailed
  dsimp only
  split
  · next rest _ =>
    have gone : TimelineKept s (s.setAbandoned rest) := .of (s.setAbandoned_only rest)
    refine ite (ends (gone.trans (.scoreInLoading _ (State.count_only _ _)))) (ends (TimelineKept.resetIf ?_ _))
    exact (gone.trans (.of (State.count_only _ _))).trans (.of (State.scoreFailed_only _))
  · have settled : TimelineKept s (s.settleOffer s.transmit.boxes.keepOffered) := .of_same rfl rfl
    exact ends (((settled.trans (.of (State.count_only _ _))).trans (.of (State.scoreFailed_only _))).resetIf _)
  · exact same s

end KeepsTimeline

open KeepsTimeline in
/-- Every command keeps the conditions of the timeline. -/
theorem exec_keeps_timeline (c : Instr) (s : State) : KeepsTimeline s (exec c s) := by
  cases c <;> simp only [exec]
  case powerOnReset => exact ends (.coldReset s)
  case loadingComplete image =>
    refine whenever (ends (TimelineKept.trans (t := s.takeConfiguration _) (.of_same rfl rfl) (.enterJoining _)))
  case joiningTimerExpiry => exact whenever (ends (.enterRunning s))
  case dwellExpiry code order =>
    have converted : TimelineKept s (s.convertSlot s.sequencer.position code) := .of (s.convertSlot_only _ code)
    exact whenever (ends ((TimelineKept.ite (converted.trans (.of (State.sweepEnd_only _ order))) converted).trans
      (.of (State.startDwell_only _ _))))
  case warmUpExpiry i => exact whenever (of (s.setRecord_only i _))
  case suspectTimerExpiry i =>
    exact whenever (ends ((TimelineKept.of (s.setRecord_only i _)).trans (.of (State.writeFlag_only _ _ _))))
  case pinEdge pin level =>
    unfold execPinEdge
    refine ite (same s) ?_
    dsimp only
    split <;> exact ends (.of_same rfl rfl)
  case debounceExpiry i =>
    have taken : TimelineKept s (s.takePin i) := .of_same rfl rfl
    exact whenever (ends ((TimelineKept.ite (taken.trans (.of (State.count_only _ _))) taken).trans
      (.of (State.handLevels_only _ s))))
  case odoPulse => exact whenever (ends (.of_same rfl rfl))
  case travelTimerExpiry order =>
    have closed : TimelineKept s { s with source := s.source.close } := .of_same rfl rfl
    exact whenever (ends ((closed.trans (.of (State.post_only _ _ _))).trans (.trackerTakes _ _ _ order)))
  case standstillTimerExpiry => exact whenever (ends (.of_same rfl rfl))
  case travelTaken order => exact head fun f => ite (took (.of (State.count_only _ _))) (took (.trackerTakes _ _ _ order))
  case lossTimerExpiry =>
    exact whenever (ends ((((TimelineKept.of (s.setTracker_only _)).trans (.of (State.writeFlag_only _ _ _))).trans
      (.of (State.detectorLost_only _ true))).trans (.timelineLoss _)))
  case statusTaken => exact head fun f => took (.of (State.takeStatus_only _ f))
  case readingTaken => exact head fun f => took (.of (State.takeReading_only _ f))
  case readingStale n k l =>
    unfold execReadingStale
    split
    · exact same s
    · exact same s
    · exact of (s.setPresence_only n _)
  case silenceLimitReached n => exact of (s.checkSilence_only n)
  case updateTimerExpiry =>
    exact whenever (ends (((TimelineKept.of (s.post_only _ _)).trans (.of (State.count_only _ _))).trans
      (.of (State.setDetector_only _ _))))
  case maxOpenTimerExpiry =>
    exact whenever (ends (((TimelineKept.of (s.post_only _ _)).trans (.of (State.count_only _ _))).trans
      (.of (State.setDetector_only _ _))))
  case sightTaken =>
    refine head fun f => ite ?_ (took (.refl _))
    split
    · exact took (.of (State.count_only _ _))
    · exact took (.takeSight _ _)
  case approachCapExpiry origin sequence =>
    unfold execApproachCapExpiry
    split
    · exact same s
    · exact ite (same s) (ends (.approachCap s origin sequence))
  case engulfCapExpiry origin sequence =>
    unfold execEngulfCapExpiry
    split
    · exact same s
    · exact whenever (ends (.engulfCap s origin sequence))
  case postHoldExpiry => exact postHoldExpiry s
  case demandTaken =>
    exact head fun f => ite (took ((TimelineKept.of (State.takeDemandEntry_only _ f)).trans (.of (State.reselect_only _))))
      (took (.refl _))
  case demandHoldExpiry n source =>
    unfold execDemandHoldExpiry
    split
    · exact same s
    · exact whenever (ends ((TimelineKept.of (s.setDemandsCount_only _ .expired)).trans (.of (State.reselect_only _))))
  case safeTaken => exact head fun f => ite (took (.of (State.takeSafe_only _ f))) (took (.refl _))
  case safeHoldExpiry n => exact whenever (of (s.setSafe_only _))
  case demandRepeatExpiry source =>
    unfold execDemandRepeatExpiry
    dsimp only
    split
    · exact same s
    · exact whenever (ends ((TimelineKept.of (s.setEmitter_only source _)).trans (.of (State.post_only _ _ _))))
  case safeRepeatExpiry =>
    exact whenever (ends ((TimelineKept.of (s.setSafeEmitter_only _)).trans (.of (State.post_only _ _ _))))
  case scrubTimerExpiry => exact whenever (of s.endScrub_only)
  case checkTimerExpiry =>
    exact whenever (ite (ends ((TimelineKept.of s.endScrub_only).trans (.of (State.count_only _ _))))
      (of (s.setScrub_only _)))
  case intervalTimerExpiry n => exact whenever (of (s.putChannel_only n _))
  case settleTimerExpiry =>
    have settled : TimelineKept s { s with ramps := { s.ramps with settle := Option.none, settled := true } } :=
      .of_same rfl rfl
    exact whenever (ends (settled.trans (.of (State.stallCheck_only _))))
  case accountingTimerExpiry =>
    have restarted : TimelineKept s { s with accounting := { s.accounting with timer := some accountingTime } } :=
      .of_same rfl rfl
    refine whenever ?_
    dsimp only
    split
    · exact ends (restarted.trans (.of (State.cabinSecond_only _)))
    · exact ends (restarted.trans (.of (State.inletSecond_only _)))
    · exact ends restarted
  case sent => exact sent s
  case arbitrationLost => exact arbitrationLost s
  case failed => exact failed s
  case withdrawalTimerExpiry => exact whenever (ends (.of_same rfl rfl))
  case statusTimerExpiry =>
    have restarted : TimelineKept s { s with link := { s.link with status := some s.statusPeriod } } := .of_same rfl rfl
    exact whenever (ends (restarted.trans (.of (State.post_only _ _ _))))
  case readingTimerExpiry =>
    let period := routinePeriod s.cfg.readingInterval s.stretch.interval.factor
    have restarted : TimelineKept s { s with link := { s.link with reading := some period } } := .of_same rfl rfl
    exact whenever (ends (restarted.trans (.foldl (fun t i => .of (t.postReading_only i)) _ _)))
  case frameReceived f => exact ite (same s) (ends (.receiveFrame s f))
  case guardExpiry => exact whenever (of (s.setGuard_only _))
  case hushTaken => exact head fun f => took (.of (State.takeHush_only _ f))
  case stretchEnd part =>
    cases part with
    | peer => exact whenever (of s.endPeerStretch_only)
    | interval => exact whenever (of (s.setIntervalStretch_only _))
  case frameDiscarded =>
    unfold execFrameDiscarded
    split
    · exact same s
    · exact ite (same s) (ite (took (.of (State.count_only _ _))) (whenever (took (.refl _))))
  case query => exact serve fun f => .of (State.takeQuery_only _ f)
  case clearCounters => exact serve fun f => (TimelineKept.answered _ f _).trans (.of (State.clearGroup_only _ _))
  case clearFlags =>
    exact serve fun f => (TimelineKept.answered _ f _).trans
      (.foldl (fun t i => .of (State.clearNamed_only _ t i)) _ _)
  case clearFilter =>
    exact serve fun f => .unlessMoving ((TimelineKept.answered _ f _).trans (.of (State.clearFilter_only _)))
  case resetLink => exact serve fun f => .unlessMoving (.resetLink _ f)
  case resetPlume =>
    exact serve fun f => .unlessMoving (((TimelineKept.answered _ f _).trans (.resetTimelineRecords _)).trans
      (.of (State.resetDetector_only _)))
  case resetDemands =>
    exact serve fun f => .unlessMoving ((TimelineKept.answered _ f _).trans (.of (State.resetDemands_only _)))
  case resetAll => exact serve fun f => .unlessMoving (.acceptResetAll _ f)
  case fullResetCarriedOut => exact whenever (ends (.coldReset s))
  case lampTest => exact serve fun f => (TimelineKept.answered _ f _).trans (.of (State.writeFlag_only _ _ _))
  case unknownRequest => exact serve fun f => .answered _ f _

/-- The passing of a millisecond changes ages alone. -/
theorem State.tick_keeps_timeline (s : State) : TimelineKept s s.tick := by
  have count : s.tick.plumeCount = s.plumeCount := by
    show ((s.timeline.records.map PlumeRecord.tick).filter (·.holds)).length = _
    rw [List.filter_map, List.length_map]
    rfl
  refine ⟨fun h => (List.length_map _).trans_le h, fun h => map_ordered _ (fun _ => ⟨rfl, rfl⟩) h, fun h => ?_⟩
  unfold PlumeFollows
  rw [count]
  exact h

/-! ## The step -/

/-- What a step does: a millisecond passes, or the command at the front runs on the state with the queue's rest. -/
theorem step_cases {s t : State} (h : step s = .next t) :
    t = s.tick ∨ ∃ c rest, exec c { s with pending := rest } = .next t := by
  unfold step at h
  split at h
  · exact .inl (Host.Outcome.next.inj h).symm
  · exact .inr ⟨_, _, h⟩

theorem step_keeps_timeline {s t : State} (h : step s = .next t) : TimelineKept s t := by
  rcases step_cases h with rfl | ⟨c, rest, run⟩
  · exact s.tick_keeps_timeline
  · have taken : TimelineKept s { s with pending := rest } := .of_same rfl rfl
    exact taken.trans (exec_keeps_timeline c _ t run)

theorem step_keeps_entries {s t : State} (h : step s = .next t) (k : EntriesBounded s) : EntriesBounded t := by
  rcases step_cases h with rfl | ⟨c, rest, run⟩
  · exact State.tick_keeps_entries k
  · exact (exec_does run).keeps_entries ⟨k.demands, k.readings⟩

/-- Settles O58. -/
theorem everyStepKeepsTheLists : Obligations.EveryStepKeepsTheLists := by
  refine ⟨fun s t bounded h => ?_, fun s t ordered h => (step_keeps_timeline h).ordered ordered,
    fun s t follows h => (step_keeps_timeline h).follows follows⟩
  obtain ⟨demands, readings⟩ := step_keeps_entries h ⟨bounded.demands, bounded.readings⟩
  exact ⟨(step_keeps_timeline h).bounded bounded.plumes, demands, readings⟩

end Sys2Proof.Machine
end

section
/-! PROOFS. The peer table: which readings are known (O24), stale readings and silent peers (O23). -/

namespace Sys2Proof.Machine

open Sys2Proof

/-! ## The frame of an update, and of the event it ends -/

/-- The frame of an update within an event, before the choice that ends it. -/
theorem Changes.within {qs ps : List Part} {ns : List Note} {s t : State} (only : Only qs s t) (notes : Notes ns s t)
    (inside : qs ⊆ .offer :: .boxes :: .counters :: .flagBits :: ps := by decide)
    (ho : Part.offer ∉ qs := by decide) : Changes ps ns s t :=
  ⟨only.mono inside, notes, fun _ h => (only .offer ho).trans h⟩

/-- The frame of an event that ends with the choice of the frame on offer. -/
theorem Changes.ends {qs ps : List Part} {ns : List Note} {s t : State} (only : Only qs s t) (notes : Notes ns s t)
    (inside : qs ⊆ .offer :: .boxes :: .counters :: .flagBits :: ps := by decide)
    (ho : Part.offer ∉ qs := by decide) : Changes ps ns s t.chooseOffer :=
  Changes.of (only.mono inside) notes (only .offer ho)

/-- The choice at the end of an event alone. -/
theorem Changes.choice (s : State) : Changes [] [] s s.chooseOffer :=
  Changes.ends (Only.refl [] s) (Notes.refl [] s)

/-! ## Known readings (R37) -/

theorem Reading.hasKey_iff {r : Reading} {k : Kind} {l : Location} :
    r.hasKey k l = true ↔ r.kind = k ∧ r.location = l := decide_eq_true_iff

theorem Quality.isKnown_iff {q : Quality} : q.isKnown = true ↔ q = .good ∨ q = .suspect := by
  cases q <;> simp [Quality.isKnown]

theorem Kind.isPollutant_iff {k : Kind} : k.isPollutant = true ↔ k = .pm ∨ k = .no2 ∨ k = .co2 := by
  cases k <;> simp [Kind.isPollutant]

theorem Presence.info?_eq_some {p : Presence} {i : PeerInfo} : p.info? = some i ↔ p = .present i := by
  cases p <;> simp [Presence.info?]

namespace State

theorem isStale_eq_false {s : State} {r : Reading} :
    s.isStale r = false ↔ r.stale = false ∧ r.ageMs < s.cfg.staleTimeMs * s.stretch.peer.factor := by
  rw [isStale, staleLimit, Bool.or_eq_false_iff, decide_eq_false_iff_not, Nat.not_le]

/-- A record can be known to its users: not stale, GOOD or SUSPECT, and with a burden where its kind has one (R37). -/
def knows (s : State) (k : Kind) (r : Reading) : Bool :=
  !s.isStale r && r.quality.isKnown && (!k.isPollutant || r.burden.isSome)

theorem knows_iff {s : State} {k : Kind} {r : Reading} : s.knows k r = true ↔
    (r.stale = false ∧ r.ageMs < s.cfg.staleTimeMs * s.stretch.peer.factor) ∧
      (r.quality = .good ∨ r.quality = .suspect) ∧ (k = .pm ∨ k = .no2 ∨ k = .co2 → r.burden.isSome = true) := by
  rw [← isStale_eq_false, ← Quality.isKnown_iff, ← Kind.isPollutant_iff]
  unfold knows
  rw [Bool.and_eq_true, Bool.and_eq_true, Bool.not_eq_true', Bool.or_eq_true, Bool.not_eq_true', and_assoc,
    ← Bool.not_eq_true k.isPollutant, ← imp_iff_not_or]

/-- A value is known of a peer when the first record of the key in a PRESENT entry's list can be known. -/
theorem peerValue_eq_some {s : State} {n : Fin 8} {k : Kind} {l : Location} {v : Nat} :
    s.peerValue n k l = some v ↔ ∃ i r, s.peers[n].presence = .present i ∧
      i.readings.find? (·.hasKey k l) = some r ∧ s.knows k r = true ∧ r.value = v := by
  unfold peerValue
  constructor
  · intro h
    split at h
    · cases h
    · next i info =>
      split at h
      · cases h
      · next r found =>
        split at h
        · next known => exact ⟨i, r, Presence.info?_eq_some.mp info, found, known, Option.some.inj h⟩
        · cases h
  · rintro ⟨i, r, present, found, known, rfl⟩
    rw [Presence.info?_eq_some.mpr present]
    dsimp only
    rw [found]
    exact if_pos known

end State

/-- Settles O24. -/
theorem peerReadingIsKnownUnderFiveConditions : Obligations.PeerReadingIsKnownUnderFiveConditions := by
  intro s n k l v
  rw [State.peerValue_eq_some]
  constructor
  · rintro ⟨i, r, present, found, known, value⟩
    obtain ⟨key, before, after, split, others⟩ := List.find?_eq_some_iff_append.mp found
    obtain ⟨kind, location⟩ := Reading.hasKey_iff.mp key
    obtain ⟨fresh, quality, burden⟩ := State.knows_iff.mp known
    refine ⟨i, r, before, after, present, split, fun x hx same => ?_, kind, location, value, fresh, quality, burden⟩
    have other := others x hx
    rw [Reading.hasKey_iff.mpr same] at other
    cases other
  · rintro ⟨i, r, before, after, present, split, others, kind, location, value, fresh, quality, burden⟩
    refine ⟨i, r, present, List.find?_eq_some_iff_append.mpr ⟨Reading.hasKey_iff.mpr ⟨kind, location⟩, before, after, split,
      fun x hx => ?_⟩, State.knows_iff.mpr ⟨fresh, quality, burden⟩, value⟩
    rw [Bool.not_eq_true', Bool.eq_false_iff]
    exact fun same => others x hx (Reading.hasKey_iff.mp same)

namespace State

/-! ## Entries of the peer table -/

theorem peers_setPresence_same (s : State) (n : Fin 8) (p : Presence) :
    (s.setPresence n p).peers[n] = { s.peers[n] with presence := p } := (set_get _ n n _).trans (if_pos rfl)

theorem peers_setPresence_ne (s : State) {n m : Fin 8} (p : Presence) (h : m ≠ n) :
    (s.setPresence n p).peers[m] = s.peers[m] := (set_get _ n m _).trans (if_neg h.symm)

theorem setPresence_self {s : State} {n : Fin 8} {p : Presence} (h : s.peers[n].presence = p) :
    s.setPresence n p = s := by
  have same : s.peers.set n { s.peers[n] with presence := p } = s.peers := by
    refine vector_ext_fin fun m => ?_
    rw [set_get]
    split
    · next e => subst e; subst h; rfl
    · rfl
  unfold setPresence
  rw [same]

theorem peers_raiseTally_same (s : State) (n : Fin 8) :
    (s.raiseTally n).peers[n] = { s.peers[n] with tally := (s.peers[n].tally + 1) % 4294967296 } :=
  (set_get _ n n _).trans (if_pos rfl)

theorem peers_raiseTally_ne (s : State) {n m : Fin 8} (h : m ≠ n) : (s.raiseTally n).peers[m] = s.peers[m] :=
  (set_get _ n m _).trans (if_neg h.symm)

theorem peers_chooseOffer (s : State) : s.chooseOffer.peers = s.peers := s.chooseOffer_only .peers (by decide)

theorem peerValue_congr {s t : State} (hp : t.peers = s.peers) (hc : t.cfg = s.cfg)
    (hs : t.stretch.peer = s.stretch.peer) (n : Fin 8) (k : Kind) (l : Location) :
    t.peerValue n k l = s.peerValue n k l := by
  unfold peerValue isStale staleLimit
  rw [hp, hc, hs]

theorem peerValue_chooseOffer (s : State) (n : Fin 8) (k : Kind) (l : Location) :
    s.chooseOffer.peerValue n k l = s.peerValue n k l :=
  peerValue_congr s.peers_chooseOffer (s.chooseOffer_only .cfg (by decide)) (s.chooseOffer_only .stretch (by decide)) n k l

/-! ## Stale readings (R33) -/

/-- The mark that READING_STALE leaves on a record: set when the record has the key and its age has reached the limit. -/
theorem markStale_eq (s : State) (k : Kind) (l : Location) (rs : List Reading) :
    s.markStale k l rs = rs.map fun r =>
      if r.kind = k ∧ r.location = l ∧ s.cfg.staleTimeMs * s.stretch.peer.factor ≤ r.ageMs then { r with stale := true }
      else r := by
  refine List.map_congr_left fun r _ => ?_
  by_cases key : r.hasKey k l = true
  · obtain ⟨kind, location⟩ := Reading.hasKey_iff.mp key
    by_cases aged : s.cfg.staleTimeMs * s.stretch.peer.factor ≤ r.ageMs
    · rw [if_pos key, if_pos ⟨kind, location, aged⟩]
      simp [isStale, staleLimit, aged]
    · rw [if_pos key, if_neg fun h => aged h.2.2]
      simp [isStale, staleLimit, aged]
  · rw [if_neg key, if_neg fun h => key (Reading.hasKey_iff.mpr ⟨h.1, h.2.1⟩)]

/-- The event of READING_STALE at a PRESENT entry. -/
def markedStale (s : State) (n : Fin 8) (k : Kind) (l : Location) (i : PeerInfo) : State :=
  s.setPresence n (.present { i with readings := s.markStale k l i.readings })

theorem execReadingStale_present {s : State} {n : Fin 8} {i : PeerInfo} (k : Kind) (l : Location)
    (h : s.peers[n].presence = .present i) :
    execReadingStale n k l s = .next (s.markedStale n k l i).chooseOffer := by
  unfold execReadingStale
  rw [h]
  rfl

theorem execReadingStale_other {s : State} {n : Fin 8} (k : Kind) (l : Location)
    (h : ∀ i, s.peers[n].presence ≠ .present i) : execReadingStale n k l s = .next s.chooseOffer := by
  unfold execReadingStale
  split
  · rfl
  · rfl
  · next i present => exact absurd present (h i)

theorem peerValue_markedStale {s : State} {n : Fin 8} {k : Kind} {l : Location} {i : PeerInfo}
    (aged : ∀ r ∈ i.readings, r.kind = k → r.location = l → s.cfg.staleTimeMs * s.stretch.peer.factor ≤ r.ageMs) :
    (s.markedStale n k l i).peerValue n k l = none := by
  refine Option.eq_none_iff_forall_not_mem.mpr fun v known => ?_
  obtain ⟨j, r, present, found, knows, -⟩ := peerValue_eq_some.mp known
  rw [markedStale, peers_setPresence_same] at present
  cases present
  have marked := List.mem_of_find?_eq_some found
  rw [markStale_eq] at marked
  obtain ⟨x, hx, rfl⟩ := List.mem_map.mp marked
  obtain ⟨held, -⟩ := List.find?_eq_some_iff_append.mp found
  have key := Reading.hasKey_iff.mp held
  have fresh := (knows_iff.mp knows).1.1
  by_cases old : x.kind = k ∧ x.location = l ∧ s.cfg.staleTimeMs * s.stretch.peer.factor ≤ x.ageMs
  · rw [if_pos old] at fresh
    cases fresh
  · rw [if_neg old] at key
    exact old ⟨key.1, key.2, aged x hx key.1 key.2⟩

theorem markedStale_of_younger {s : State} {n : Fin 8} {k : Kind} {l : Location} {i : PeerInfo}
    (h : s.peers[n].presence = .present i)
    (younger : ∀ r ∈ i.readings, r.kind = k → r.location = l → r.ageMs < s.cfg.staleTimeMs * s.stretch.peer.factor) :
    s.markedStale n k l i = s := by
  have unmarked : s.markStale k l i.readings = i.readings := by
    rw [markStale_eq]
    refine (List.map_congr_left fun r hr => if_neg fun old => ?_).trans (List.map_id _)
    exact Nat.not_le.mpr (younger r hr old.1 old.2.1) old.2.2
  unfold markedStale
  rw [unmarked]
  exact setPresence_self h

/-! ## The purge of a peer (R100) -/

theorem purgePeer_removes (s : State) (n : Fin 8) (hr : s.startup.role = .inlet) (hs : s.startup.station ≠ .loading) :
    (s.purgePeer n).demands = s.demands.without n ∧ (s.purgePeer n).safe.remote[n] = none ∧
      (s.purgePeer n).cell .purged = (s.cell .purged).add (s.demands.countOf n) := by
  have eq : s.purgePeer n = ((({ s with demands := s.demands.without n } : State).bump .purged
      (s.demands.countOf n)).reselect).setRemoteMember n none :=
    if_neg (by rw [s.listWorks_iff.mpr ⟨hr, hs⟩]; decide)
  have bumped := bump_only { s with demands := s.demands.without n } .purged (s.demands.countOf n)
  generalize hb : ({ s with demands := s.demands.without n } : State).bump .purged (s.demands.countOf n) = b at eq bumped
  have role : b.reselect.startup.role = .inlet :=
    (b.reselect_only .role (by decide)).trans ((bumped .role (by decide)).trans hr)
  have station : b.reselect.startup.station ≠ .loading := fun h => hs
    ((bumped .station (by decide)).symm.trans ((b.reselect_only .station (by decide)).symm.trans h))
  rw [eq]
  refine ⟨?_, ?_, ?_⟩
  · exact (setSafe_only _ _ .demands (by decide)).trans
      ((b.reselect_only .demands (by decide)).trans (bumped .demands (by decide)))
  · rw [setRemoteMember, (b.reselect.setSafe_does _ role).1 station]
    exact (set_get _ n n none).trans (if_pos rfl)
  · refine (setSafe_notes _ _ (.counter .purged) (by decide)).trans
      ((b.reselect_notes (.counter .purged) (by decide)).trans ?_)
    rw [← hb, cell_bump, if_pos rfl]
    rfl

/-! ## Silent peers (R28, R29) -/

/-- What R29 does at entry `n` before the cabin notice. -/
def silencedEntry (s : State) (n : Fin 8) (i : PeerInfo) : State :=
  (((s.setPresence n (.silent i.silenced)).purgePeer n).raiseTally n).setFlag .peerLost

theorem goSilent_present {s : State} {n : Fin 8} {i : PeerInfo} (h : s.peers[n].presence = .present i) :
    s.goSilent n = if s.cabinPeer = some n then (s.silencedEntry n i).computeMix false else s.silencedEntry n i := by
  unfold goSilent
  rw [h]
  rfl

theorem execSilenceLimitReached_present {s : State} {n : Fin 8} {i : PeerInfo} (h : s.peers[n].presence = .present i)
    (late : 3 * i.intervalMs * s.stretch.peer.factor ≤ i.lastStatusMs) :
    execSilenceLimitReached n s = .next (s.goSilent n).chooseOffer := by
  unfold execSilenceLimitReached checkSilence
  rw [h]
  exact congrArg finish (if_pos late)

theorem execSilenceLimitReached_early {s : State} {n : Fin 8}
    (early : ∀ i, s.peers[n].presence = .present i → i.lastStatusMs < 3 * i.intervalMs * s.stretch.peer.factor) :
    execSilenceLimitReached n s = .next s.chooseOffer := by
  unfold execSilenceLimitReached checkSilence
  split
  · rfl
  · rfl
  · next i present => exact congrArg finish (if_neg (Nat.not_le.mpr (early i present)))

theorem silencedEntry_only (s : State) (n : Fin 8) (i : PeerInfo) : Only peerParts s (s.silencedEntry n i) :=
  ((((s.setPresence_only n _).mono (by decide)).trans ((purgePeer_only _ n).mono (by decide))).trans
    ((raiseTally_only _ n).mono (by decide))).trans ((writeFlag_only _ _ _).mono (by decide))

theorem silencedEntry_notes (s : State) (n : Fin 8) (i : PeerInfo) : Notes silentNotes s (s.silencedEntry n i) :=
  ((((s.setPresence_notes n _).mono (by simp)).trans ((purgePeer_notes _ n).mono (by simp))).trans
    ((raiseTally_notes _ n).mono (by simp))).trans ((writeFlag_notes _ _ _).mono (by simp))

theorem silencedEntry_same (s : State) (n : Fin 8) (i : PeerInfo) : (s.silencedEntry n i).peers[n] =
    { presence := .silent i.silenced, tally := (s.peers[n].tally + 1) % 4294967296 } := by
  have purged : State.peers _ = _ := (s.setPresence n (.silent i.silenced)).purgePeer_only n .peers (by decide)
  show (((s.setPresence n (.silent i.silenced)).purgePeer n).raiseTally n).peers[n] = _
  rw [peers_raiseTally_same, purged, peers_setPresence_same]

theorem silencedEntry_ne (s : State) {n m : Fin 8} (i : PeerInfo) (h : m ≠ n) :
    (s.silencedEntry n i).peers[m] = s.peers[m] := by
  have purged : State.peers _ = _ := (s.setPresence n (.silent i.silenced)).purgePeer_only n .peers (by decide)
  show (((s.setPresence n (.silent i.silenced)).purgePeer n).raiseTally n).peers[m] = _
  rw [peers_raiseTally_ne _ h, purged, peers_setPresence_ne _ _ h]

theorem silencedEntry_peerLost (s : State) (n : Fin 8) (i : PeerInfo) :
    (s.silencedEntry n i).flag .peerLost = true := (flag_writeFlag _ _ _ _).trans (if_pos rfl)

/-- What follows the entry's own changes is at most a computation of the mix law. -/
theorem goSilent_after {s : State} {n : Fin 8} {i : PeerInfo} (h : s.peers[n].presence = .present i) :
    Only (.mix :: rampParts) (s.silencedEntry n i) (s.goSilent n) ∧ Notes rampNotes (s.silencedEntry n i) (s.goSilent n) := by
  rw [goSilent_present h]
  split
  · exact ⟨computeMix_only _ _, computeMix_notes _ _⟩
  · exact ⟨Only.refl _ _, Notes.refl _ _⟩

end State

/-- Settles O23. -/
theorem stalenessAndSilence : Obligations.StalenessAndSilence := by
  refine ⟨fun n k l s => ⟨fun i present => ?_, fun other => ?_⟩, fun n s => ⟨fun i present late => ?_, fun early => ?_⟩⟩
  · refine ⟨_, State.execReadingStale_present k l present, ?_, fun aged => ?_, fun younger => ?_, fun m hm => ?_, ?_⟩
    · rw [State.peers_chooseOffer, State.markedStale, State.peers_setPresence_same, State.markStale_eq]
    · rw [State.peerValue_chooseOffer]
      exact State.peerValue_markedStale aged
    · rw [State.markedStale_of_younger present younger]
      exact Changes.choice s
    · rw [State.peers_chooseOffer]
      exact s.peers_setPresence_ne _ hm
    · exact Changes.ends (s.setPresence_only n _) (s.setPresence_notes n _)
  · exact ⟨_, State.execReadingStale_other k l other, Changes.choice s⟩
  · obtain ⟨only, notes⟩ := State.goSilent_after present
    have peers : (s.goSilent n).chooseOffer.peers = (s.silencedEntry n i).peers :=
      (s.goSilent n).peers_chooseOffer.trans (only .peers (by decide))
    have demands : (s.goSilent n).chooseOffer.demands = (s.silencedEntry n i).demands :=
      ((s.goSilent n).chooseOffer_only .demands (by decide)).trans (only .demands (by decide))
    have safe : (s.goSilent n).chooseOffer.safe = (s.silencedEntry n i).safe :=
      ((s.goSilent n).chooseOffer_only .safeSet (by decide)).trans (only .safeSet (by decide))
    have regime : (s.goSilent n).chooseOffer.regime = (s.silencedEntry n i).regime :=
      ((s.goSilent n).chooseOffer_only .regime (by decide)).trans (only .regime (by decide))
    have purged : (s.goSilent n).chooseOffer.cell .purged = (s.silencedEntry n i).cell .purged :=
      ((s.goSilent n).chooseOffer_notes (.counter .purged) (by simp)).trans (notes (.counter .purged) (by decide))
    refine ⟨_, State.execSilenceLimitReached_present present late, ?_, ?_, fun role station => ?_, fun cabin => ?_,
      fun m hm => ?_, ?_⟩
    · rw [peers]
      exact s.silencedEntry_same n i
    · rw [State.flag_chooseOffer]
      exact (notes (.flag .peerLost) (by decide)).trans (s.silencedEntry_peerLost n i)
    · obtain ⟨gone, member, counted⟩ := (s.setPresence n (.silent i.silenced)).purgePeer_removes n role station
      rw [demands, safe, purged]
      exact ⟨congrArg DemandList.entries gone, member, counted⟩
    · refine ⟨s.silencedEntry n i, peers.symm, demands.symm, safe.symm, regime.symm,
        Changes.within (s.silencedEntry_only n i) (s.silencedEntry_notes n i), ?_⟩
      rw [State.goSilent_present present, if_pos cabin]
      exact Changes.choice _
    · rw [peers]
      exact s.silencedEntry_ne i hm
    · exact Changes.ends (s.goSilent_only n) (s.goSilent_notes n)
  · exact ⟨_, State.execSilenceLimitReached_early early, Changes.choice s⟩

end Sys2Proof.Machine
end

section
/-! PROOFS. Frames taken by the peer table: READING (O22) and STATUS (O21). -/

namespace Sys2Proof.Machine

open Sys2Proof

/-! ## The head of the receive queue -/

theorem Delivered.headOf {s : State} {kind : Nat} {f : Frame} {rest : List Frame} (h : Delivered s kind f rest) :
    s.headOf kind = some f := by
  unfold State.headOf
  rw [h.queue]
  exact if_pos ⟨h.station, h.isKind, h.long⟩

theorem Delivered.dequeued {s : State} {kind : Nat} {f : Frame} {rest : List Frame} (h : Delivered s kind f rest) :
    s.dequeue.receive.queue = rest := by
  show s.receive.queue.drop 1 = rest
  rw [h.queue]
  rfl

theorem Delivered.readingTaken {s : State} {f : Frame} {rest : List Frame} (h : Delivered s 7 f rest) :
    exec .readingTaken s = .next (s.dequeue.takeReading f).chooseOffer := by
  show execReadingTaken s = _
  unfold execReadingTaken
  rw [h.headOf]
  rfl

theorem Delivered.statusTaken {s : State} {f : Frame} {rest : List Frame} (h : Delivered s 6 f rest) :
    exec .statusTaken s = .next (s.dequeue.takeStatus f).chooseOffer := by
  show execStatusTaken s = _
  unfold execStatusTaken
  rw [h.headOf]
  rfl

/-- An update after the head has left the queue, seen from the event's start. -/
theorem Only.taken {ps : List Part} {s t : State} (h : Only ps s.dequeue t) : Only (.queue :: ps) s t :=
  s.dequeue_only.seq h (by simp) (by simp)

theorem Notes.taken {ns : List Note} {s t : State} (h : Notes ns s.dequeue t) : Notes ns s t :=
  s.dequeue_notes.seq h (by simp) (by simp)

/-- An unusable frame is counted as an unknown kind, and the count is all that it brings about. -/
theorem State.unknownKind_counted (s : State) :
    (s.dequeue.count .unknownKinds).chooseOffer.cell .unknownKinds = (s.cell .unknownKinds).add 1 ∧
      Changes [.queue, .alert] [.counter .unknownKinds, .flag .counterRollover] s
        (s.dequeue.count .unknownKinds).chooseOffer := by
  refine ⟨?_, Changes.ends (s.dequeue.count_only _).taken (s.dequeue.count_notes _).taken⟩
  refine ((State.chooseOffer_notes _ (.counter .unknownKinds) (by simp)).trans (State.cell_count _ _ _)).trans ?_
  exact if_pos rfl

theorem byte_lt (f : Frame) (i : Nat) : f.byte i < 256 := BitVec.isLt _

theorem burdenOfWord_eq (w : Nat) : burdenOfWord w = if w = 65535 then none else some (min 4000 w) := by
  unfold burdenOfWord
  rw [Nat.min_comm]

/-! ## Codes of a received frame (R26, R32) -/

theorem kindOfCode_eq_some {c : Nat} {k : Kind} : kindOfCode c = some k ↔ kindCode k = c := by
  constructor
  · intro h
    unfold kindOfCode at h
    split at h <;> cases h <;> rfl
  · rintro rfl
    cases k <;> rfl

theorem locationOfCode_eq_some {c : Nat} {l : Location} : locationOfCode c = some l ↔ locationCode l = c := by
  constructor
  · intro h
    unfold locationOfCode at h
    split at h <;> cases h <;> rfl
  · rintro rfl
    cases l <;> rfl

theorem qualityOfCode_eq_some {c : Nat} {q : Quality} : qualityOfCode c = some q ↔ qualityCode q = c := by
  constructor
  · intro h
    unfold qualityOfCode at h
    split at h <;> cases h <;> rfl
  · rintro rfl
    cases q <;> rfl

theorem roleOfCode_eq_some {c : Nat} {r : Role} : roleOfCode c = some r ↔ roleCode r = c := by
  constructor
  · intro h
    unfold roleOfCode at h
    split at h <;> cases h <;> rfl
  · rintro rfl
    cases r <;> rfl

theorem announcedOfCode_eq_some {c : Nat} {a : Announced} : announcedOfCode c = some a ↔ announcedCode a = c := by
  constructor
  · intro h
    unfold announcedOfCode at h
    split at h <;> cases h <;> rfl
  · rintro rfl
    cases a <;> rfl

/-- The codes that name a kind are those up to the largest of the table. -/
theorem kindOfCode_isSome {c : Nat} : (kindOfCode c).isSome = true ↔ c ≤ 6 := by
  constructor
  · intro h
    obtain ⟨k, hk⟩ := Option.isSome_iff_exists.mp h
    rw [← kindOfCode_eq_some.mp hk]
    cases k <;> decide
  · intro h
    interval_cases c <;> rfl

theorem locationOfCode_isSome {c : Nat} : (locationOfCode c).isSome = true ↔ c ≤ 2 := by
  constructor
  · intro h
    obtain ⟨l, hl⟩ := Option.isSome_iff_exists.mp h
    rw [← locationOfCode_eq_some.mp hl]
    cases l <;> decide
  · intro h
    interval_cases c <;> rfl

theorem qualityOfCode_isSome {c : Nat} : (qualityOfCode c).isSome = true ↔ c ≤ 4 := by
  constructor
  · intro h
    obtain ⟨q, hq⟩ := Option.isSome_iff_exists.mp h
    rw [← qualityOfCode_eq_some.mp hq]
    cases q <;> decide
  · intro h
    interval_cases c <;> rfl

theorem roleOfCode_isSome {c : Nat} : (roleOfCode (c % 4)).isSome = true ↔ c % 4 ≠ 0 := by
  have h : c % 4 < 4 := Nat.mod_lt _ (by decide)
  interval_cases c % 4 <;> decide

theorem announcedOfCode_isSome {c : Nat} : (announcedOfCode (c % 4)).isSome = true ↔ c % 4 ≠ 0 := by
  have h : c % 4 < 4 := Nat.mod_lt _ (by decide)
  interval_cases c % 4 <;> decide

/-! ## READING (R31, R32) -/

/-- A READING is usable exactly when its three codes name a kind, a location and a quality (R32). -/
theorem decodeReading_isSome (f : Frame) : (decodeReading f).isSome = true ↔
    f.byte 0 % 8 ≤ 6 ∧ f.byte 0 / 8 % 4 ≤ 2 ∧ f.byte 0 / 32 ≤ 4 := by
  rw [← kindOfCode_isSome, ← locationOfCode_isSome, ← qualityOfCode_isSome]
  unfold decodeReading
  constructor
  · intro h
    split at h
    · next k l q kind location quality => rw [kind, location, quality]; exact ⟨rfl, rfl, rfl⟩
    · cases h
  · rintro ⟨kind, location, quality⟩
    obtain ⟨k, hk⟩ := Option.isSome_iff_exists.mp kind
    obtain ⟨l, hl⟩ := Option.isSome_iff_exists.mp location
    obtain ⟨q, hq⟩ := Option.isSome_iff_exists.mp quality
    rw [hk, hl, hq]
    rfl

theorem decodeReading_fields {f : Frame} {r : Reading} (h : decodeReading f = some r) :
    kindCode r.kind = f.byte 0 % 8 ∧ locationCode r.location = f.byte 0 / 8 % 4 ∧
      qualityCode r.quality = f.byte 0 / 32 ∧ r.value = min 10000 (f.word 1) ∧
      r.burden = (if f.word 3 = 65535 then none else some (min 4000 (f.word 3))) ∧ r.ageMs = 0 ∧ r.stale = false := by
  unfold decodeReading at h
  split at h
  · next k l q kind location quality =>
    cases h
    exact ⟨kindOfCode_eq_some.mp kind, locationOfCode_eq_some.mp location, qualityOfCode_eq_some.mp quality, rfl,
      burdenOfWord_eq _, rfl, rfl⟩
  · cases h

/-- What stands in a reading list before the record just placed at its end (R31). -/
theorem placeReading_end (rs : List Reading) (r : Reading) : ∃ others, placeReading rs r = others ++ [r] ∧
    (rs.any (·.hasKey r.kind r.location) = true → others = rs.filter fun x => !x.hasKey r.kind r.location) ∧
    (rs.any (·.hasKey r.kind r.location) = false → rs.length < 8 → others = rs) ∧
    (rs.any (·.hasKey r.kind r.location) = false → 8 ≤ rs.length → others = rs.drop 1) := by
  unfold placeReading readingCapacity
  split
  · next held => exact ⟨_, rfl, fun _ => rfl, fun free => absurd held (by rw [free]; decide),
      fun free => absurd held (by rw [free]; decide)⟩
  · next free =>
    split
    · next room => exact ⟨_, rfl, fun held => absurd held free, fun _ _ => rfl, fun _ full => absurd room (by omega)⟩
    · next full => exact ⟨_, rfl, fun held => absurd held free, fun _ room => absurd room full, fun _ _ => rfl⟩

namespace State

/-- The reading list of entry `n` with a record placed in it. -/
def withReading (s : State) (n : Fin 8) (i : PeerInfo) (r : Reading) : State :=
  s.setPresence n (.present { i with readings := placeReading i.readings r })

theorem takeReading_other {s : State} {f : Frame} (h : ∀ i, s.peers[f.station].presence ≠ .present i) :
    s.takeReading f = s := by
  unfold takeReading
  split
  · rfl
  · rfl
  · next i present => exact absurd present (h i)

theorem takeReading_unusable {s : State} {f : Frame} {i : PeerInfo} (h : s.peers[f.station].presence = .present i)
    (hd : decodeReading f = none) : s.takeReading f = s.count .unknownKinds := by
  unfold takeReading
  rw [h]
  dsimp only
  rw [hd]

theorem takeReading_usable {s : State} {f : Frame} {i : PeerInfo} {r : Reading}
    (h : s.peers[f.station].presence = .present i) (hd : decodeReading f = some r) :
    s.takeReading f = if s.cabinPeer = some f.station ∧ r.kind = .co2 ∧ r.location = .cabin then
      (s.withReading f.station i r).computeMix false else s.withReading f.station i r := by
  unfold takeReading
  rw [h]
  dsimp only
  rw [hd]
  rfl

/-- A READING changes the list of its sender alone: its entry takes the record, and a computation changes no entry. -/
theorem takeReading_peers {s : State} {f : Frame} {i : PeerInfo} {r : Reading}
    (h : s.peers[f.station].presence = .present i) (hd : decodeReading f = some r) :
    (s.takeReading f).peers = (s.withReading f.station i r).peers := by
  rw [takeReading_usable h hd]
  split
  · exact computeMix_only _ false .peers (by decide)
  · rfl

theorem takeReading_peers_ne (s : State) {f : Frame} {m : Fin 8} (hm : m ≠ f.station) :
    (s.takeReading f).peers[m] = s.peers[m] := by
  by_cases present : ∃ i, s.peers[f.station].presence = .present i
  · obtain ⟨i, present⟩ := present
    cases hd : decodeReading f with
    | none =>
      rw [takeReading_unusable present hd]
      exact congrArg (·[m]) (s.count_only .unknownKinds .peers (by decide))
    | some r =>
      rw [takeReading_peers present hd]
      exact s.peers_setPresence_ne _ hm
  · rw [takeReading_other (not_exists.mp present)]

/-- What a READING can touch at most. -/
theorem takeReading_frame (s : State) (f : Frame) :
    Only (.peers :: .mix :: rampParts) s (s.takeReading f) := by
  have taken (n : Fin 8) (p : Presence) : Only (.peers :: .mix :: rampParts) s (s.setPresence n p) :=
    (s.setPresence_only n p).mono (by decide)
  unfold takeReading
  split
  · exact Only.refl _ _
  · exact Only.refl _ _
  · split
    · exact (s.count_only _).mono (by decide)
    · exact Only.ite ((taken _ _).trans ((mixNotice_only _).mono (by decide))) (taken _ _)

end State

/-- Settles O22. -/
theorem readingTakenByThePeerTable : Obligations.ReadingTakenByThePeerTable := by
  intro s f rest delivered n usable
  have decoded (h : usable) : ∃ r, decodeReading f = some r :=
    Option.isSome_iff_exists.mp ((decodeReading_isSome f).mpr h)
  have undecoded (h : ¬ usable) : decodeReading f = none :=
    Option.not_isSome_iff_eq_none.mp (mt (decodeReading_isSome f).mp h)
  refine ⟨_, delivered.readingTaken, ?_, fun other => ?_, fun i present unusable => ?_, fun i present ok => ?_,
    fun i present ok => ⟨fun cabin kind location => ?_, fun other => ?_⟩, fun m hm => ?_, ?_⟩
  · exact (State.chooseOffer_only _ .queue (by decide)).trans
      ((s.dequeue.takeReading_frame f .queue (by decide)).trans delivered.dequeued)
  · rw [State.takeReading_other (s := s.dequeue) other]
    exact Changes.ends s.dequeue_only s.dequeue_notes
  · rw [State.takeReading_unusable (s := s.dequeue) present (undecoded unusable)]
    exact s.unknownKind_counted
  · obtain ⟨r, hr⟩ := decoded ok
    obtain ⟨kind, location, quality, value, burden, age, stale⟩ := decodeReading_fields hr
    obtain ⟨others, placed, held, room, full⟩ := placeReading_end i.readings r
    refine ⟨r, others, ?_, kind, location, quality, value, burden, age, stale, held, room, full⟩
    rw [State.peers_chooseOffer, State.takeReading_peers (s := s.dequeue) present hr, State.withReading,
      State.peers_setPresence_same, placed]
    rfl
  · obtain ⟨r, hr⟩ := decoded ok
    obtain ⟨kindCode, locationCode, -⟩ := decodeReading_fields hr
    have kindIs : r.kind = .co2 := Option.some.inj ((kindOfCode_eq_some.mpr kindCode).symm.trans (by rw [kind]; rfl))
    have locationIs : r.location = .cabin :=
      Option.some.inj ((locationOfCode_eq_some.mpr locationCode).symm.trans (by rw [location]; rfl))
    refine ⟨s.dequeue.withReading n i r, ?_, Changes.within (State.setPresence_only _ _ _).taken
      (State.setPresence_notes _ _ _).taken, ?_⟩
    · rw [State.peers_chooseOffer, State.takeReading_peers (s := s.dequeue) present hr]
    · rw [State.takeReading_usable (s := s.dequeue) present hr, if_pos ⟨cabin, kindIs, locationIs⟩]
      exact Changes.choice _
  · obtain ⟨r, hr⟩ := decoded ok
    obtain ⟨kind, location, -⟩ := decodeReading_fields hr
    have unseen : ¬ (s.dequeue.cabinPeer = some f.station ∧ r.kind = .co2 ∧ r.location = .cabin) := by
      rintro ⟨cabin, kindIs, locationIs⟩
      rw [kindIs] at kind
      rw [locationIs] at location
      exact other.elim (· cabin) (·.elim (· kind.symm) (· location.symm))
    rw [State.takeReading_usable (s := s.dequeue) present hr, if_neg unseen]
    exact Changes.ends (State.setPresence_only _ _ _).taken (State.setPresence_notes _ _ _).taken
  · rw [State.peers_chooseOffer]
    exact s.dequeue.takeReading_peers_ne hm
  · exact Changes.ends (s.dequeue.takeReading_frame f).taken (s.dequeue.takeReading_notes f).taken

/-! ## STATUS (R25, R26, R27) -/

theorem regimeOfCode_eq (c : Nat) :
    (regimeOfCode c).map (fun r => (regimeCode r).val) = if c ≤ 5 then some c else none := by
  split
  · next h => interval_cases c <;> rfl
  · next h =>
    unfold regimeOfCode
    split <;> first | exact absurd (by decide) h | rfl

/-- A STATUS is usable exactly when its codes name a role and a station state other than LOADING (R26). -/
theorem decodeStatus_isSome (f : Frame) : (decodeStatus f).isSome = true ↔
    f.byte 0 % 4 ≠ 0 ∧ f.byte 0 / 16 % 4 ≠ 0 := by
  rw [← roleOfCode_isSome, ← announcedOfCode_isSome]
  unfold decodeStatus
  constructor
  · intro h
    split at h
    · next role announced hr ha => rw [hr, ha]; exact ⟨rfl, rfl⟩
    · cases h
  · rintro ⟨role, announced⟩
    obtain ⟨r, hr⟩ := Option.isSome_iff_exists.mp role
    obtain ⟨a, ha⟩ := Option.isSome_iff_exists.mp announced
    rw [hr, ha]
    rfl

theorem decodeStatus_fields {f : Frame} {i : PeerInfo} (h : decodeStatus f = some i) :
    roleCode i.role = f.byte 0 % 4 ∧ announcedCode i.announced = f.byte 0 / 16 % 4 ∧
      i.intervalMs = max 1 (f.byte 7) * 100 ∧ i.lastStatusMs = 0 ∧
      i.burden = (if f.word 4 = 65535 then none else some (min 4000 (f.word 4))) ∧
      (i.role = .inlet → i.damper = some (min 1023 (f.word 2)) ∧
        i.regime.map (fun r => (regimeCode r).val) = if f.byte 1 ≤ 5 then some (f.byte 1) else none) ∧
      (i.role ≠ .inlet → i.damper = none ∧ i.regime = none) ∧ i.summary.toNat = f.byte 6 := by
  unfold decodeStatus at h
  split at h
  · next role announced hr ha =>
    cases h
    refine ⟨roleOfCode_eq_some.mp hr, announcedOfCode_eq_some.mp ha, rfl, rfl, burdenOfWord_eq _, fun inlet => ?_,
      fun other => ⟨if_neg other, if_neg other⟩, (BitVec.toNat_ofNat _ _).trans (Nat.mod_eq_of_lt (byte_lt f 6))⟩
    refine ⟨if_pos inlet, ?_⟩
    rw [if_pos inlet]
    exact regimeOfCode_eq _
  · cases h

namespace State

/-- The reading list that a STATUS leaves at an entry: kept for a PRESENT peer of the same role alone (R25, R27). -/
def keptReadings (s : State) (n : Fin 8) (role : Role) : List Reading :=
  match s.peers[n].presence with
  | .absent => []
  | .present old => if old.role = role then old.readings else []
  | .silent _ => []

theorem keptReadings_same {s : State} {n : Fin 8} {role : Role} {o : PeerInfo}
    (h : s.peers[n].presence = .present o) (hr : o.role = role) : s.keptReadings n role = o.readings := by
  unfold keptReadings
  rw [h]
  exact if_pos hr

theorem keptReadings_other {s : State} {n : Fin 8} {role : Role}
    (h : ∀ o, s.peers[n].presence = .present o → o.role ≠ role) : s.keptReadings n role = [] := by
  unfold keptReadings
  split
  · rfl
  · next o present => exact if_neg (h o present)
  · rfl

/-- The entry of a peer takes the fields of a usable STATUS. -/
def putStatus (s : State) (n : Fin 8) (new : PeerInfo) (readings : List Reading) : State :=
  s.setPresence n (.present { new with readings := readings })

theorem takeStatusInfo_roleKept {s : State} {n : Fin 8} {new : PeerInfo} (empty : new.readings = [])
    (h : ∀ o, s.peers[n].presence.fields? = some o → o.role = new.role) :
    s.takeStatusInfo n new = s.putStatus n new (s.keptReadings n new.role) := by
  have fresh : ({ new with readings := [] } : PeerInfo) = new := by rw [← empty]
  unfold takeStatusInfo putStatus keptReadings
  cases hp : s.peers[n].presence with
  | absent => exact congrArg (fun i => s.setPresence n (.present i)) fresh.symm
  | present old =>
    have same : old.role = new.role := h old (by rw [hp]; rfl)
    dsimp only
    rw [if_pos same, if_pos same]
  | silent old =>
    have same : old.role = new.role := h old (by rw [hp]; rfl)
    dsimp only
    rw [if_pos same, fresh]

theorem takeStatusInfo_roleChanged {s : State} {n : Fin 8} {new o : PeerInfo} (empty : new.readings = [])
    (h : s.peers[n].presence.fields? = some o) (hr : o.role ≠ new.role) :
    ∃ p, s.takeStatusInfo n new = (s.roleChange n p).putStatus n new (s.keptReadings n new.role) := by
  have fresh : ({ new with readings := [] } : PeerInfo) = new := by rw [← empty]
  unfold takeStatusInfo putStatus keptReadings
  cases hp : s.peers[n].presence with
  | absent => rw [hp] at h; cases h
  | present old =>
    rw [hp] at h
    cases h
    dsimp only
    rw [if_neg hr, if_neg hr, fresh]
    exact ⟨_, rfl⟩
  | silent old =>
    rw [hp] at h
    cases h
    dsimp only
    rw [if_neg hr, fresh]
    exact ⟨_, rfl⟩

theorem roleChange_peers (s : State) (n : Fin 8) (p : Presence) :
    (s.roleChange n p).peers = (s.setPresence n p).peers := purgePeer_only _ n .peers (by decide)

/-- A usable STATUS changes the entry of its sender alone: PRESENT, with the tally as it was. -/
theorem takeStatusInfo_peers (s : State) (n : Fin 8) {new : PeerInfo} (empty : new.readings = []) :
    (s.takeStatusInfo n new).peers[n] =
        { presence := .present { new with readings := s.keptReadings n new.role }, tally := s.peers[n].tally } ∧
      ∀ m : Fin 8, m ≠ n → (s.takeStatusInfo n new).peers[m] = s.peers[m] := by
  by_cases kept : ∀ o, s.peers[n].presence.fields? = some o → o.role = new.role
  · rw [takeStatusInfo_roleKept empty kept]
    exact ⟨s.peers_setPresence_same n _, fun m hm => s.peers_setPresence_ne _ hm⟩
  · push Not at kept
    obtain ⟨o, fields, other⟩ := kept
    obtain ⟨p, eq⟩ := takeStatusInfo_roleChanged empty fields other
    rw [eq, putStatus]
    refine ⟨?_, fun m hm => ?_⟩
    · rw [peers_setPresence_same, roleChange_peers, peers_setPresence_same]
    · rw [peers_setPresence_ne _ _ hm, roleChange_peers, peers_setPresence_ne _ _ hm]

/-- A role change purges the peer at an INLET (R27, R100). -/
theorem takeStatusInfo_purged {s : State} {n : Fin 8} {new o : PeerInfo} (empty : new.readings = [])
    (h : s.peers[n].presence.fields? = some o) (hr : o.role ≠ new.role) (inlet : s.startup.role = .inlet)
    (station : s.startup.station ≠ .loading) :
    (∀ e ∈ (s.takeStatusInfo n new).demands.entries, e.station ≠ n) ∧
      (s.takeStatusInfo n new).safe.remote[n] = none := by
  obtain ⟨p, eq⟩ := takeStatusInfo_roleChanged empty h hr
  obtain ⟨gone, member, -⟩ := (s.setPresence n p).purgePeer_removes n inlet station
  rw [eq]
  refine ⟨fun e he => ?_, member⟩
  have removed : ((s.roleChange n p).putStatus n new (s.keptReadings n new.role)).demands = s.demands.without n := gone
  rw [removed] at he
  exact of_decide_eq_true (List.mem_filter.mp he).2

theorem takeStatus_unusable {s : State} {f : Frame} (h : decodeStatus f = none) :
    s.takeStatus f = s.count .unknownKinds := by
  unfold takeStatus
  rw [h]

theorem takeStatus_usable {s : State} {f : Frame} {new : PeerInfo} (h : decodeStatus f = some new)
    (other : f.station ≠ s.startup.own) :
    s.takeStatus f = (s.takeStatusInfo f.station new).noticeIfCabinChanged s := by
  unfold takeStatus
  rw [h]
  exact if_neg other

theorem noticeIfCabinChanged_peers (s before : State) : (s.noticeIfCabinChanged before).peers = s.peers :=
  noticeIfCabinChanged_only s before .peers (by decide)

theorem cabin_congr {s t : State} (h : t.peers = s.peers) :
    t.cabinPeer = s.cabinPeer ∧ t.cabinBurden = s.cabinBurden := by
  have peer : t.cabinPeer = s.cabinPeer := by
    unfold cabinPeer
    rw [h]
  refine ⟨peer, ?_⟩
  unfold cabinBurden
  rw [peer, h]

end State

/-- Settles O21. -/
theorem statusTakenByThePeerTable : Obligations.StatusTakenByThePeerTable := by
  intro s f rest delivered foreign n usable
  have undecoded (h : ¬ usable) : decodeStatus f = none :=
    Option.not_isSome_iff_eq_none.mp (mt (decodeStatus_isSome f).mp h)
  refine ⟨_, delivered.statusTaken, ?_, fun unusable => ?_, fun ok => ?_, fun m hm => ?_, ?_⟩
  · exact (State.chooseOffer_only _ .queue (by decide)).trans
      ((s.dequeue.takeStatus_only f .queue (by decide)).trans delivered.dequeued)
  · rw [State.takeStatus_unusable (undecoded unusable)]
    exact s.unknownKind_counted
  · obtain ⟨new, hnew⟩ := Option.isSome_iff_exists.mp ((decodeStatus_isSome f).mpr ok)
    have empty := Act.decodeStatus_readings hnew
    obtain ⟨role, announced, interval, last, burden, inlet, other, summary⟩ := decodeStatus_fields hnew
    rw [State.takeStatus_usable (s := s.dequeue) hnew foreign]
    let u := s.dequeue.takeStatusInfo n new
    have peers : (u.noticeIfCabinChanged s.dequeue).chooseOffer.peers = u.peers :=
      (State.peers_chooseOffer _).trans (u.noticeIfCabinChanged_peers _)
    have demands : (u.noticeIfCabinChanged s.dequeue).chooseOffer.demands = u.demands :=
      (State.chooseOffer_only _ .demands (by decide)).trans (u.noticeIfCabinChanged_only _ .demands (by decide))
    have safe : (u.noticeIfCabinChanged s.dequeue).chooseOffer.safe = u.safe :=
      (State.chooseOffer_only _ .safeSet (by decide)).trans (u.noticeIfCabinChanged_only _ .safeSet (by decide))
    obtain ⟨cabinPeer, cabinBurden⟩ := State.cabin_congr peers
    refine ⟨{ new with readings := s.keptReadings n new.role }, ?_, role, announced, interval, last, burden, inlet, other,
      summary, fun o present same => State.keptReadings_same present same, fun h => State.keptReadings_other h,
      fun o fields changed atInlet => ?_, u, peers.symm, ?_, fun kept => ?_, fun differs => ?_,
      fun samePeer sameBurden => ?_⟩
    · rw [peers]
      exact (s.dequeue.takeStatusInfo_peers n empty).1
    · rw [demands, safe]
      exact State.takeStatusInfo_purged (s := s.dequeue) empty fields changed atInlet delivered.station
    · exact Changes.within (State.takeStatusInfo_only _ n new).taken (State.takeStatusInfo_notes _ n new).taken
    · have eq : u = s.dequeue.putStatus n new _ := State.takeStatusInfo_roleKept (s := s.dequeue) empty kept
      rw [eq]
      exact Changes.within (State.setPresence_only _ _ _).taken (State.setPresence_notes _ _ _).taken
    · rw [cabinPeer, cabinBurden] at differs
      have notice : u.noticeIfCabinChanged s.dequeue = u.computeMix false :=
        if_neg fun same => differs.elim (· same.1) (· same.2)
      rw [show (s.dequeue.takeStatusInfo f.station new).noticeIfCabinChanged s.dequeue = _ from notice]
      exact Changes.choice _
    · rw [cabinPeer] at samePeer
      rw [cabinBurden] at sameBurden
      have none : u.noticeIfCabinChanged s.dequeue = u := if_pos ⟨samePeer, sameBurden⟩
      rw [show (s.dequeue.takeStatusInfo f.station new).noticeIfCabinChanged s.dequeue = _ from none]
      exact Changes.choice u
  · rw [State.peers_chooseOffer]
    cases hd : decodeStatus f with
    | none =>
      rw [State.takeStatus_unusable hd]
      exact congrArg (·[m]) (s.dequeue.count_only .unknownKinds .peers (by decide))
    | some new =>
      rw [State.takeStatus_usable (s := s.dequeue) hd foreign, State.noticeIfCabinChanged_peers]
      exact (s.dequeue.takeStatusInfo_peers n (Act.decodeStatus_readings hd)).2 m hm
  · exact Changes.ends (s.dequeue.takeStatus_only f).taken (s.dequeue.takeStatus_notes f).taken

end Sys2Proof.Machine
end

section
/-! PROOFS. The travel source at a pulse and at a standstill (O16). -/

namespace Sys2Proof.Machine

open Sys2Proof

namespace State

theorem source_chooseOffer (s : State) : s.chooseOffer.source = s.source := s.chooseOffer_only .source (by decide)

theorem setSource_only (s : State) (c : Source) : Only [.source] s { s with source := c } := by
  intro p hp
  cases p <;> first | rfl | exact ⟨rfl, rfl⟩ | exact ⟨rfl, rfl, rfl⟩ | exact absurd (by decide) hp

theorem setSource_notes (s : State) (c : Source) : Notes [] s { s with source := c } := Notes.plain rfl rfl rfl

theorem sourceWorks_iff {s : State} :
    s.sourceWorks = true ↔ s.cfg.travelSource = true ∧ s.startup.station ≠ .loading := by
  simp [sourceWorks]

end State

/-- A part with room takes the decimetres (R40). -/
theorem gainPart_of_room {part dm : Nat} (h : part + dm ≤ 65535) : gainPart part dm = part + dm := if_pos h

/-- With room or without, a part stays in its range (R39, log 36). -/
theorem gainPart_le (part dm : Nat) : gainPart part dm ≤ 65535 := by
  unfold gainPart
  split
  · next room => exact room
  · exact Nat.le_of_lt_succ (BitVec.isLt _)

/-- Settles O16: the decimetres of a pulse are the quotient of the accumulator by the pulse scale. -/
theorem pulseIsCountedInDecimetres : Obligations.PulseIsCountedInDecimetres := by
  refine fun s => ⟨fun source station scale => ?_, fun idle => ?_, fun running => ?_⟩
  · let c := s.source.pulse s.cfg.pulseScale
    refine ⟨({ s with source := c } : State).chooseOffer, (s.source.accumulator + 100) / s.cfg.pulseScale,
      if_pos (State.sourceWorks_iff.mpr ⟨source, station⟩), ?_⟩
    rw [State.source_chooseOffer]
    exact ⟨Nat.mod_add_div _ _, Nat.mod_lt _ scale, rfl, gainPart_of_room, gainPart_le _ _, rfl, rfl, rfl, rfl, rfl,
      rfl, Changes.ends (s.setSource_only c) (s.setSource_notes c)⟩
  · have still : s.sourceWorks ≠ true := fun works => by
      obtain ⟨source, station⟩ := State.sourceWorks_iff.mp works
      rcases idle with none | loading
      · exact absurd source (by rw [none]; nofun)
      · exact station loading
    exact ⟨s.chooseOffer, if_neg still, Changes.choice s⟩
  · let c : Source := { s.source with standstill := true, standstillTimer := none }
    refine ⟨({ s with source := c } : State).chooseOffer, if_pos running, State.source_chooseOffer _, ?_⟩
    exact Changes.ends (s.setSource_only c) (s.setSource_notes c)

end Sys2Proof.Machine
end

section
/-! PROOFS. The loss timer: the tracker LOST, and its notice to the detector and the timeline (O19). -/

namespace Sys2Proof.Machine

open Sys2Proof

/-! ## The loss notice (R51, R63, R82) -/

namespace State

theorem tracker_chooseOffer (s : State) : s.chooseOffer.tracker = s.tracker := s.chooseOffer_only .tracker (by decide)

theorem detector_chooseOffer (s : State) : s.chooseOffer.detector = s.detector :=
  s.chooseOffer_only .detector (by decide)

theorem timeline_chooseOffer (s : State) : s.chooseOffer.timeline = s.timeline := by
  unfold chooseOffer
  split <;> rfl

theorem detectorLost_forward {s : State} (h : s.startup.role = .forward) (lost : Bool) :
    (s.detectorLost lost).detector = { s.detector with travelLost := lost } := by
  unfold detectorLost
  rw [if_pos h]
  rfl

theorem detectorLost_elsewhere {s : State} (h : s.startup.role ≠ .forward) (lost : Bool) : s.detectorLost lost = s :=
  if_neg h

theorem timelineWorks_iff {s : State} :
    s.timelineWorks = true ↔ s.startup.role = .inlet ∧ s.startup.station ≠ .loading := by
  simp [timelineWorks]

theorem timelineLoss_idle {s : State} (h : s.startup.role ≠ .inlet ∨ s.startup.station = .loading) :
    s.timelineLoss = s := by
  refine if_pos (Bool.eq_false_iff.mpr fun works => ?_)
  obtain ⟨role, station⟩ := timelineWorks_iff.mp works
  exact h.elim (· role) station

theorem timelineLoss_works {s : State} (role : s.startup.role = .inlet) (station : s.startup.station ≠ .loading) :
    s.timelineLoss = (s.setRecords (s.timeline.records.map PlumeRecord.lost)).judgePlume
      (s.timeline.records.any fun r => decide (r.phase = .approaching)) :=
  if_neg fun idle => Bool.false_ne_true (idle.symm.trans (timelineWorks_iff.mpr ⟨role, station⟩))

/-- The tracker LOST, with TRAVEL_LOST set: the loss before its notice to the detector and the timeline. -/
def loseTravel (s : State) : State :=
  (s.setTracker { s.tracker with state := .lost, loss := none }).setFlag .travelLost

theorem loseTravel_only (s : State) : Only [.tracker, .flagBits, .alert] s s.loseTravel :=
  (s.setTracker_only _).seq (writeFlag_only _ _ _) (by decide) (by decide)

theorem loseTravel_notes (s : State) : Notes [.flag .travelLost] s s.loseTravel :=
  (s.setTracker_notes _).seq (writeFlag_notes _ _ _) (by simp) (by simp)

theorem loseTravel_flag (s : State) : s.loseTravel.flag .travelLost = true :=
  (flag_writeFlag _ _ _ _).trans (if_pos rfl)

theorem execLossTimerExpiry_eq {s : State} (h : s.tracker.loss.isSome = true) :
    exec .lossTimerExpiry s = .next (s.loseTravel.detectorLost true).timelineLoss.chooseOffer := if_pos h

end State

/-- The event of the loss timer at an INLET: no detector, and the records judged after the loss notice. -/
theorem State.detectorLost_timelineLoss_inlet {s : State} (inlet : s.startup.role = .inlet)
    (station : s.startup.station ≠ .loading) :
    (s.detectorLost true).timelineLoss = (s.setRecords (s.timeline.records.map PlumeRecord.lost)).judgePlume
      (s.timeline.records.any fun r => decide (r.phase = .approaching)) := by
  rw [State.detectorLost_elsewhere (by rw [inlet]; nofun), State.timelineLoss_works inlet station]

/-- Settles O19: the loss notice passes the detector, which a FORWARD alone has, and the timeline, which an INLET alone
has. -/
theorem lossTimerMakesTheTrackerLost : Obligations.LossTimerMakesTheTrackerLost := by
  intro s running
  let told := s.loseTravel.detectorLost true
  have only : Only [.tracker, .detector, .flagBits, .alert] s told :=
    s.loseTravel_only.seq (State.detectorLost_only _ true) (by decide) (by decide)
  have notes : Notes [.flag .travelLost] s told :=
    s.loseTravel_notes.seq (State.detectorLost_notes _ true) (by simp) (by simp)
  refine ⟨told.timelineLoss.chooseOffer, State.execLossTimerExpiry_eq running, ?_, ?_, fun forward => ?_,
    fun inlet station => ?_, fun inlet station => ?_, fun idle => ?_, ?_⟩
  · rw [State.tracker_chooseOffer]
    exact (told.timelineLoss_only .tracker (by decide)).trans (State.detectorLost_only _ true .tracker (by decide))
  · rw [State.flag_chooseOffer]
    exact ((told.timelineLoss_notes (.flag .travelLost) (by simp)).trans
      (State.detectorLost_notes _ true (.flag .travelLost) (by simp))).trans s.loseTravel_flag
  · rw [State.detector_chooseOffer]
    exact (told.timelineLoss_only .detector (by decide)).trans
      (State.detectorLost_forward (s := s.loseTravel) forward true)
  · have judged := State.detectorLost_timelineLoss_inlet (s := s.loseTravel) inlet station
    rw [State.timeline_chooseOffer, judged, State.judgePlume_records]
    rfl
  · have judged := State.detectorLost_timelineLoss_inlet (s := s.loseTravel) inlet station
    let u := s.loseTravel.setRecords (s.timeline.records.map PlumeRecord.lost)
    refine ⟨u, ?_, ?_⟩
    · exact Changes.within (s.loseTravel_only.append (State.setRecords_only _ _))
        (s.loseTravel_notes.seq (State.setRecords_notes _ _) (by simp) (by simp))
    · rw [judged]
      exact Changes.choice _
  · have idleTold : told.startup.role ≠ .inlet ∨ told.startup.station = .loading := by
      rw [show told.startup.role = s.startup.role from only .role (by decide),
        show told.startup.station = s.startup.station from only .station (by decide)]
      exact idle
    rw [State.timelineLoss_idle idleTold]
    exact Changes.ends only notes
  · exact Changes.ends (only.append told.timelineLoss_only)
      (notes.seq told.timelineLoss_notes (by simp) (by simp))

end Sys2Proof.Machine
end

section
/-! PROOFS. A TRAVEL at the tracker (O18). -/

namespace Sys2Proof.Machine

open Sys2Proof

/-! ## What a followed TRAVEL hands on (R50, R52) -/

theorem travelHanded_only (order : TravelOrder) (before : Bool) (d : Nat) (back : Bool) (v : Nat) (s : State) :
    Only travelParts s (travelHanded order before d back v s) := by
  have notice (u : State) : Only travelParts u ((u.detectorTravel d back).timelineTravel d back v) :=
    (u.detectorTravel_only d back).seq (State.timelineTravel_only _ d back v) (by decide) (by decide)
  have turned (u : State) : Only travelParts u (if s.tracker.ignition = before then u else u.reselect) :=
    Only.ite (Only.refl _ _) (u.reselect_only.mono (by decide))
  cases order with
  | noticeFirst => exact (notice s).trans (turned _)
  | ignitionFirst => exact (turned s).trans (notice _)

theorem travelHanded_notes (order : TravelOrder) (before : Bool) (d : Nat) (back : Bool) (v : Nat) (s : State) :
    Notes travelNotes s (travelHanded order before d back v s) := by
  have notice (u : State) : Notes travelNotes u ((u.detectorTravel d back).timelineTravel d back v) :=
    (u.detectorTravel_notes d back).seq (State.timelineTravel_notes _ d back v) (by simp) (by simp)
  have turned (u : State) : Notes travelNotes u (if s.tracker.ignition = before then u else u.reselect) :=
    Notes.ite (Notes.refl _ _) (u.reselect_notes.mono (by simp))
  cases order with
  | noticeFirst => exact (notice s).trans (turned _)
  | ignitionFirst => exact (turned s).trans (notice _)

/-- A travel notice moves a sighting and leaves the travel-lost marking to the loss and resync notices (R62, R63). -/
theorem State.detectorTravel_travelLost (s : State) (d : Nat) (back : Bool) :
    (s.detectorTravel d back).detector.travelLost = s.detector.travelLost := by
  unfold State.detectorTravel
  split <;> rfl

theorem travelHanded_travelLost (order : TravelOrder) (before : Bool) (d : Nat) (back : Bool) (v : Nat) (s : State) :
    (travelHanded order before d back v s).detector.travelLost = s.detector.travelLost := by
  have notice (u : State) : ((u.detectorTravel d back).timelineTravel d back v).detector.travelLost =
      u.detector.travelLost :=
    (congrArg Detector.travelLost (State.timelineTravel_only _ d back v .detector (by decide))).trans
      (u.detectorTravel_travelLost d back)
  have turned (u : State) :
      (if s.tracker.ignition = before then u else u.reselect).detector.travelLost = u.detector.travelLost := by
    split
    · rfl
    · exact congrArg Detector.travelLost (u.reselect_only .detector (by decide))
  cases order with
  | noticeFirst => exact (turned _).trans (notice s)
  | ignitionFirst => exact (notice _).trans (turned s)

namespace State

/-- A followed TRAVEL is the tracker's new value, and what is handed on from it. -/
theorem trackerFollows_eq (s : State) (n : Fin 8) (m : Travel) (d : Nat) (order : TravelOrder) :
    s.trackerFollows n m d order = travelHanded order s.tracker.ignition d m.reverse m.speed
      (s.setTracker (Tracker.follow s.cfg n m)) := by
  cases order with
  | noticeFirst =>
    have tracker := (s.setTracker (Tracker.follow s.cfg n m)).travelNotice_only d m .tracker (by decide)
    show ignitionNotice _ _ = _
    unfold ignitionNotice
    rw [show (travelNotice _ d m).tracker = _ from tracker]
    rfl
  | ignitionFirst => rfl

theorem trackerFollows_tracker (s : State) (n : Fin 8) (m : Travel) (d : Nat) (order : TravelOrder) :
    (s.trackerFollows n m d order).tracker = Tracker.follow s.cfg n m := by
  rw [trackerFollows_eq]
  exact travelHanded_only _ _ _ _ _ _ .tracker (by decide)

/-- What a followed TRAVEL touches of the flags, counters and mailboxes: the travel notice's own. -/
theorem trackerFollows_keeps (s : State) (n : Fin 8) (m : Travel) (d : Nat) (order : TravelOrder) :
    Notes travelNotes s (s.trackerFollows n m d order) := by
  rw [trackerFollows_eq]
  exact (s.setTracker_notes _).seq (travelHanded_notes _ _ _ _ _ _) (by simp) (by simp)

/-! ## The tracker by its state and the sender (R47, R48, R49) -/

/-- The resync before its TRAVEL is followed: TRAVEL_LOST and the detector's travel-lost mark are clear (R47, R51). -/
def resynced (s : State) : State := (s.clearFlag .travelLost).detectorLost false

theorem resynced_only (s : State) : Only [.detector, .flagBits, .alert] s s.resynced :=
  (s.writeFlag_only _ _).seq (detectorLost_only _ _) (by decide) (by decide)

theorem resynced_notes (s : State) : Notes [.flag .travelLost] s s.resynced :=
  (s.writeFlag_notes _ _).seq (detectorLost_notes _ _) (by simp) (by simp)

theorem resynced_flag (s : State) : s.resynced.flag .travelLost = false :=
  (detectorLost_notes _ _ (.flag .travelLost) (by simp)).trans ((s.flag_writeFlag _ _ _).trans (if_pos rfl))

theorem resynced_forward {s : State} (h : s.startup.role = .forward) :
    s.resynced.detector = { s.detector with travelLost := false } :=
  detectorLost_forward (s := s.clearFlag .travelLost) h false

theorem resynced_elsewhere {s : State} (h : s.startup.role ≠ .forward) : s.resynced.detector = s.detector :=
  (congrArg State.detector (detectorLost_elsewhere (s := s.clearFlag .travelLost) h false)).trans rfl

theorem trackerTakes_resync {s : State} (h : s.tracker.state ≠ .tracking) (n : Fin 8) (m : Travel)
    (order : TravelOrder) : s.trackerTakes n m order = s.resynced.trackerFollows n m 0 order := by
  unfold trackerTakes
  split
  · rfl
  · rfl
  · next tracking _ => exact absurd tracking h
  · next tracking _ => exact absurd tracking h

/-- A TRAVEL while TRACKING: from the reference, from a smaller number, or from a larger one. -/
theorem trackerTakes_tracking {s : State} {r : Fin 8} (tracking : s.tracker.state = .tracking)
    (reference : s.tracker.reference = some r) (n : Fin 8) (m : Travel) (order : TravelOrder) :
    s.trackerTakes n m order =
      if n = r then s.trackerHears n m order
      else if n < r then s.trackerFollows n m 0 order
      else s.count .travelIgnored := by
  unfold trackerTakes
  rw [tracking, reference]

/-- A distance above the largest that is travel is counted and flagged; a smaller one is no discontinuity (R48). -/
def judgeDistance (s : State) (d : Nat) : State :=
  if d ≤ maxDelta then s else (s.count .discontinuities).setFlag .travelDiscontinuity

theorem judgeDistance_travel {s : State} {d : Nat} (h : d ≤ 600) : s.judgeDistance d = s := if_pos h

theorem judgeDistance_jump {s : State} {d : Nat} (h : 600 < d) :
    s.judgeDistance d = (s.count .discontinuities).setFlag .travelDiscontinuity := if_neg (Nat.not_le_of_lt h)

theorem judgeDistance_only (s : State) (d : Nat) : Only noteParts s (s.judgeDistance d) :=
  Only.ite (Only.refl _ _) ((s.count_only _).seq (writeFlag_only _ _ _) (by decide) (by decide))

theorem judgeDistance_notes (s : State) (d : Nat) :
    Notes [.counter .discontinuities, .flag .travelDiscontinuity, .flag .counterRollover] s (s.judgeDistance d) :=
  Notes.ite (Notes.refl _ _) ((s.count_notes _).seq (writeFlag_notes _ _ _) (by simp) (by simp))

theorem judgeDistance_jump_marks {s : State} {d : Nat} (h : 600 < d) :
    (s.judgeDistance d).cell .discontinuities = (s.cell .discontinuities).add 1 ∧
      (s.judgeDistance d).flag .travelDiscontinuity = true := by
  rw [judgeDistance_jump h]
  exact ⟨(s.cell_count _ _).trans (if_pos rfl), (flag_writeFlag _ _ _ _).trans (if_pos rfl)⟩

theorem trackerHears_repeat {s : State} {m : Travel} (h : m.sequence = s.tracker.lastSequence) (n : Fin 8)
    (order : TravelOrder) :
    s.trackerHears n m order = s.setTracker { s.tracker with loss := lossTime s.cfg } := if_pos h

/-- The reference's next TRAVEL is followed, with its distance handed on when that is travel (R48). -/
theorem trackerHears_next {s : State} {m : Travel} (h : m.sequence ≠ s.tracker.lastSequence) (n : Fin 8)
    (order : TravelOrder) :
    s.trackerHears n m order =
      (s.judgeDistance (countDelta m.count s.tracker.lastCount)).trackerFollows n m
        (if countDelta m.count s.tracker.lastCount ≤ 600 then countDelta m.count s.tracker.lastCount else 0) order := by
  unfold trackerHears
  dsimp only
  rw [if_neg h]
  split
  · next travel => rw [judgeDistance_travel travel, if_pos (c := _ ≤ 600) travel]
  · next jump => rw [judgeDistance_jump (Nat.lt_of_not_le jump), if_neg (c := _ ≤ 600) jump]

end State

/-! ## TRAVEL_TAKEN (R46, R49) -/

/-- The tracker's fields from a TRAVEL delivered to a station that is no travel source (R46, R47, R49). -/
def followedTracker (f : Frame) : Tracker :=
  { state := .tracking, reference := some f.station, lastCount := f.word 0, lastSequence := f.byte 5
    speed := if (f.byte 4).testBit 2 then 0 else min 1000 (f.word 2)
    ignition := (f.byte 4).testBit 0, reverse := (f.byte 4).testBit 1, loss := some 500 }

theorem Tracker.follow_eq_followed {c : Cfg} (h : c.travelSource = false) (f : Frame) :
    Tracker.follow c f.station (decodeTravel f) = followedTracker f := by
  simp [Tracker.follow, lossTime, h, decodeTravel, followedTracker]

/-- What a delivered TRAVEL brings about before the choice that ends the event (R46, R49). -/
def State.takeTravel (s : State) (f : Frame) (order : TravelOrder) : State :=
  if s.cfg.travelSource then s.dequeue.count .travelIgnored
  else s.dequeue.trackerTakes f.station (decodeTravel f) order

theorem Delivered.travelTaken {s : State} {f : Frame} {rest : List Frame} (h : Delivered s 4 f rest)
    (order : TravelOrder) : exec (.travelTaken order) s = .next (s.takeTravel f order).chooseOffer := by
  show execTravelTaken order s = _
  unfold execTravelTaken State.takeTravel
  rw [h.headOf]
  dsimp only
  split <;> rfl

namespace State

theorem takeTravel_source {s : State} (h : s.cfg.travelSource = true) (f : Frame) (order : TravelOrder) :
    s.takeTravel f order = s.dequeue.count .travelIgnored := if_pos h

theorem takeTravel_resync {s : State} (source : s.cfg.travelSource = false) (state : s.tracker.state ≠ .tracking)
    (f : Frame) (order : TravelOrder) :
    s.takeTravel f order = s.dequeue.resynced.trackerFollows f.station (decodeTravel f) 0 order :=
  (if_neg (by rw [source]; nofun)).trans (trackerTakes_resync (s := s.dequeue) state _ _ _)

theorem takeTravel_tracking {s : State} {r : Fin 8} (source : s.cfg.travelSource = false)
    (state : s.tracker.state = .tracking) (reference : s.tracker.reference = some r) (f : Frame) (order : TravelOrder) :
    s.takeTravel f order =
      if f.station = r then s.dequeue.trackerHears f.station (decodeTravel f) order
      else if f.station < r then s.dequeue.trackerFollows f.station (decodeTravel f) 0 order
      else s.dequeue.count .travelIgnored :=
  (if_neg (by rw [source]; nofun)).trans (trackerTakes_tracking (s := s.dequeue) state reference _ _ _)

theorem takeTravel_only (s : State) (f : Frame) (order : TravelOrder) :
    Only trackerParts s.dequeue (s.takeTravel f order) :=
  Only.ite ((count_only _ _).mono (by decide)) (trackerTakes_only _ _ _ _)

theorem takeTravel_notes (s : State) (f : Frame) (order : TravelOrder) :
    Notes trackerNotes s.dequeue (s.takeTravel f order) :=
  Notes.ite ((count_notes _ _).mono (by simp)) (trackerTakes_notes _ _ _ _)

end State

/-- A TRAVEL that is not taken is counted, and the count is all that it brings about. -/
theorem State.travel_ignored (s : State) :
    (s.dequeue.count .travelIgnored).chooseOffer.cell .travelIgnored = (s.cell .travelIgnored).add 1 ∧
      Changes [.queue, .alert] [.counter .travelIgnored, .flag .counterRollover] s
        (s.dequeue.count .travelIgnored).chooseOffer := by
  refine ⟨?_, Changes.ends (s.dequeue.count_only _).taken (s.dequeue.count_notes _).taken⟩
  exact ((State.chooseOffer_notes _ (.counter .travelIgnored) (by simp)).trans (State.cell_count _ _ _)).trans
    (if_pos rfl)

/-- A delivered TRAVEL has been followed in `t`, with `d` as its delta: what comes before the hand-on is some `u`, which
holds the tracker's new value and touches these parts and these notes. -/
def FollowedFrom (order : TravelOrder) (s : State) (f : Frame) (rest : List Frame) (d : Nat) (parts : List Part)
    (notes : List Note) (t : State) : Prop :=
  ∃ u : State, u.tracker = followedTracker f ∧ u.receive.queue = rest ∧
    Changes (.queue :: .tracker :: parts) notes s u ∧
    (s.startup.role = .forward → .detector ∈ parts → u.detector = { s.detector with travelLost := false }) ∧
    (s.startup.role ≠ .forward → u.detector = s.detector) ∧
    Changes [] [] (travelHanded order s.tracker.ignition d ((f.byte 4).testBit 1) (followedTracker f).speed u) t

/-- The event of a TRAVEL that the tracker follows, from the state `x` in which it takes it. -/
theorem followedFrom_of_changes {s x : State} {f : Frame} {rest : List Frame} {parts : List Part} {notes : List Note}
    (order : TravelOrder) (d : Nat) (source : s.cfg.travelSource = false) (queue : x.receive.queue = rest)
    (changes : Changes (.queue :: parts) notes s x)
    (forward : s.startup.role = .forward → .detector ∈ parts → x.detector = { s.detector with travelLost := false })
    (elsewhere : s.startup.role ≠ .forward → x.detector = s.detector)
    (hc : Part.cfg ∉ parts := by decide) (ht : Part.tracker ∉ parts := by decide) :
    let t := (x.trackerFollows f.station (decodeTravel f) d order).chooseOffer
    t.tracker = followedTracker f ∧ FollowedFrom order s f rest d parts notes t := by
  have cfg : x.cfg = s.cfg := changes.parts .cfg (by simpa using hc)
  have tracker : x.tracker = s.tracker := changes.parts .tracker (by simpa using ht)
  have follow : Tracker.follow x.cfg f.station (decodeTravel f) = followedTracker f :=
    Tracker.follow_eq_followed (by rw [cfg]; exact source) f
  refine ⟨?_, x.setTracker (followedTracker f), rfl, queue, ⟨?_, ?_, changes.offer⟩, forward, elsewhere, ?_⟩
  · rw [State.tracker_chooseOffer, State.trackerFollows_tracker, follow]
  · exact changes.parts.seq (x.setTracker_only _) (fun p hp => by simp only [List.mem_cons] at hp ⊢; tauto)
      (by simp)
  · exact changes.notes.seq (x.setTracker_notes _) (by simp) (by simp)
  · rw [State.trackerFollows_eq, follow, tracker]
    exact Changes.choice _

theorem State.queue_chooseOffer (s : State) : s.chooseOffer.receive.queue = s.receive.queue :=
  s.chooseOffer_only .queue (by decide)

/-- The hand-on of a followed TRAVEL touches nothing but a travel notice's notes. -/
theorem follows_keeps (x : State) (n : Fin 8) (m : Travel) (d : Nat) (order : TravelOrder) {note : Note}
    (h : note ∉ travelNotes) : note.same x (x.trackerFollows n m d order).chooseOffer :=
  Note.same_trans (x.trackerFollows_keeps n m d order note h) (State.chooseOffer_notes _ note (by simp))

/-- The resync in UNSYNCED or LOST (R47, R51). -/
theorem followedFrom_of_resync {s : State} {f : Frame} {rest : List Frame} (delivered : Delivered s 4 f rest)
    (order : TravelOrder) (source : s.cfg.travelSource = false) (state : s.tracker.state ≠ .tracking) :
    let t := (s.takeTravel f order).chooseOffer
    t.tracker = followedTracker f ∧ t.flag .travelLost = false ∧
      (s.startup.role = .forward → t.detector.travelLost = false) ∧
      FollowedFrom order s f rest 0 [.detector, .alert] [.flag .travelLost] t := by
  rw [State.takeTravel_resync source state]
  have changes : Changes [.queue, .detector, .alert] [.flag .travelLost] s s.dequeue.resynced :=
    Changes.within s.dequeue.resynced_only.taken s.dequeue.resynced_notes.taken
  have queue : s.dequeue.resynced.receive.queue = rest :=
    (s.dequeue.resynced_only .queue (by decide)).trans delivered.dequeued
  obtain ⟨tracker, followed⟩ := followedFrom_of_changes order 0 source queue changes
    (fun forward _ => State.resynced_forward (s := s.dequeue) forward)
    (fun elsewhere => State.resynced_elsewhere (s := s.dequeue) elsewhere)
  refine ⟨tracker, ?_, fun forward => ?_, followed⟩
  · exact (follows_keeps _ _ _ _ _ (note := .flag .travelLost) (by simp)).trans s.dequeue.resynced_flag
  · rw [State.detector_chooseOffer, State.trackerFollows_eq, travelHanded_travelLost]
    exact congrArg Detector.travelLost (State.resynced_forward (s := s.dequeue) forward)

/-- A TRAVEL followed as the head leaves the queue, with nothing else before the hand-on. -/
theorem Delivered.followedFrom {s : State} {f : Frame} {rest : List Frame} (delivered : Delivered s 4 f rest)
    (order : TravelOrder) (d : Nat) (source : s.cfg.travelSource = false) :
    let t := (s.dequeue.trackerFollows f.station (decodeTravel f) d order).chooseOffer
    t.tracker = followedTracker f ∧ FollowedFrom order s f rest d [] [] t :=
  followedFrom_of_changes order d source delivered.dequeued (Changes.within s.dequeue_only s.dequeue_notes)
    (fun _ => nofun) fun _ => rfl

/-- The reference's next TRAVEL at a distance that is no travel: a discontinuity (R48). -/
theorem followedFrom_of_jump {s : State} {f : Frame} {rest : List Frame} {d : Nat} (delivered : Delivered s 4 f rest)
    (order : TravelOrder) (source : s.cfg.travelSource = false) (jump : 600 < d) :
    let t := ((s.dequeue.judgeDistance d).trackerFollows f.station (decodeTravel f) 0 order).chooseOffer
    t.tracker = followedTracker f ∧ t.cell .discontinuities = (s.cell .discontinuities).add 1 ∧
      t.flag .travelDiscontinuity = true ∧
      FollowedFrom order s f rest 0 [.alert]
        [.counter .discontinuities, .flag .travelDiscontinuity, .flag .counterRollover] t := by
  let x := s.dequeue.judgeDistance d
  have changes : Changes [.queue, .alert]
      [.counter .discontinuities, .flag .travelDiscontinuity, .flag .counterRollover] s x :=
    Changes.within (s.dequeue.judgeDistance_only d).taken (s.dequeue.judgeDistance_notes d).taken
  have queue : x.receive.queue = rest := (s.dequeue.judgeDistance_only d .queue (by decide)).trans delivered.dequeued
  have detector : x.detector = s.detector := changes.parts .detector (by decide)
  obtain ⟨tracker, followed⟩ := followedFrom_of_changes order 0 source queue changes (fun _ => nofun) fun _ => detector
  obtain ⟨cell, flag⟩ := State.judgeDistance_jump_marks (s := s.dequeue) jump
  exact ⟨tracker, (follows_keeps x _ _ _ _ (note := .counter .discontinuities) (by simp)).trans cell,
    (follows_keeps x _ _ _ _ (note := .flag .travelDiscontinuity) (by simp)).trans flag, followed⟩

/-- Settles O18: a case for each row of the tracker, a followed TRAVEL by `followedFrom_of_changes`. -/
theorem travelTakenByTheTracker : Obligations.TravelTakenByTheTracker := by
  intro order s f rest delivered speed delta followed hands
  refine ⟨(s.takeTravel f order).chooseOffer, delivered.travelTaken order, ?_, fun source => ?_, fun source state => ?_,
    fun source state reference => ⟨fun again => ?_, fun next => ?_⟩, fun r source state reference =>
      ⟨fun smaller => ?_, fun larger => ?_⟩, ?_⟩
  · rw [State.queue_chooseOffer]
    exact (s.takeTravel_only f order .queue (by decide)).trans delivered.dequeued
  · rw [State.takeTravel_source source]
    exact s.travel_ignored
  · exact followedFrom_of_resync delivered order source state
  · have same : (decodeTravel f).sequence = s.dequeue.tracker.lastSequence := again
    rw [State.takeTravel_tracking source state reference, if_pos rfl, State.trackerHears_repeat same,
      State.tracker_chooseOffer]
    refine ⟨?_, Changes.ends (s.dequeue.setTracker_only _).taken (s.dequeue.setTracker_notes _).taken⟩
    show ({ s.tracker with loss := lossTime s.cfg } : Tracker) = _
    rw [lossTime, source]
    rfl
  · have new : (decodeTravel f).sequence ≠ s.dequeue.tracker.lastSequence := next
    have distance : countDelta (decodeTravel f).count s.dequeue.tracker.lastCount = delta := rfl
    rw [State.takeTravel_tracking source state reference, if_pos rfl, State.trackerHears_next new, distance]
    rcases Nat.lt_or_ge 600 delta with jump | travel
    · rw [if_neg (Nat.not_le_of_lt jump)]
      obtain ⟨tracker, event⟩ := followedFrom_of_jump delivered order source jump
      exact ⟨tracker, fun travel => absurd travel (Nat.not_le_of_lt jump), fun _ => event⟩
    · rw [if_pos travel, State.judgeDistance_travel travel]
      obtain ⟨tracker, event⟩ := delivered.followedFrom order delta source
      refine ⟨tracker, fun _ => ⟨?_, ?_, event⟩, fun jump => absurd travel (Nat.not_le_of_lt jump)⟩
      · exact follows_keeps s.dequeue _ _ _ _ (note := .counter .discontinuities) (by simp)
      · exact follows_keeps s.dequeue _ _ _ _ (note := .flag .travelDiscontinuity) (by simp)
  · rw [State.takeTravel_tracking source state reference, if_neg (Fin.ne_of_lt smaller), if_pos smaller]
    exact delivered.followedFrom order 0 source
  · rw [State.takeTravel_tracking source state reference, if_neg (Fin.ne_of_gt larger),
      if_neg (Fin.not_lt.mpr (Fin.le_of_lt larger))]
    refine ⟨?_, s.travel_ignored⟩
    rw [State.tracker_chooseOffer]
    exact s.dequeue.count_only .travelIgnored .tracker (by decide)
  · exact Changes.ends (s.takeTravel_only f order).taken (s.takeTravel_notes f order).taken

end Sys2Proof.Machine
end

section
/-! PROOFS. The travel timer of a source: the content it forms, and its own tracker's feed (O17). -/

namespace Sys2Proof.Machine

open Sys2Proof

/-! ## The window and its speed (R41) -/

theorem shiftParts_toList (parts : Vector Nat 5) (current : Nat) :
    (shiftParts parts current).toList = parts.toList.drop 1 ++ [current] := rfl

theorem Source.close_speed_le (c : Source) : c.close.speed ≤ 1000 := Nat.min_le_left _ _

theorem Source.close_sequence_lt (c : Source) : c.close.sequence < 256 := Nat.mod_lt _ (by decide)

/-! ## TRAVEL content (R43, R174) -/

/-- A two-byte field holds what is below 65536, its high byte first (R174). -/
theorem byte2_value {n : Nat} (h : n < 65536) :
    (BitVec.ofNat 8 (n / 256)).toNat * 256 + (BitVec.ofNat 8 n).toNat = n := by
  rw [BitVec.toNat_ofNat, BitVec.toNat_ofNat]
  omega

theorem travelFrame_count {s : State} (h : s.source.count < 65536) : (travelFrame s).word 0 = s.source.count :=
  byte2_value h

theorem travelFrame_speed {s : State} (h : s.source.speed < 65536) : (travelFrame s).word 2 = s.source.speed :=
  byte2_value h

theorem travelFrame_sequence {s : State} (h : s.source.sequence < 256) :
    (travelFrame s).byte 5 = s.source.sequence := by
  show (BitVec.ofNat 8 s.source.sequence).toNat = _
  rw [BitVec.toNat_ofNat]
  exact Nat.mod_eq_of_lt h

/-- Three flags packed in a byte are its three lowest bits. -/
theorem bitsValue_testBit (a b c : Bool) :
    (BitVec.ofNat 8 (bitsValue [a, b, c])).toNat.testBit 0 = a ∧
      (BitVec.ofNat 8 (bitsValue [a, b, c])).toNat.testBit 1 = b ∧
      (BitVec.ofNat 8 (bitsValue [a, b, c])).toNat.testBit 2 = c := by
  revert a b c
  decide

theorem travelFrame_flags (s : State) : ((travelFrame s).byte 4).testBit 0 = s.inputs.ign.level ∧
    ((travelFrame s).byte 4).testBit 1 = s.inputs.rev.level ∧
    ((travelFrame s).byte 4).testBit 2 = s.source.standstill :=
  bitsValue_testBit _ _ _

namespace State

/-- The source after its travel timer, with its window part closed. -/
def closeSource (s : State) : State := { s with source := s.source.close }

/-- The content a closed window forms. -/
def ownTravel (s : State) : Frame := travelFrame s.closeSource

/-- The window part closed and its content queued, before the own tracker takes it. -/
def formTravel (s : State) : State := s.closeSource.post .travel s.ownTravel

theorem execTravelTimerExpiry_eq {s : State} (h : s.source.travelTimer.isSome = true) (order : TravelOrder) :
    exec (.travelTimerExpiry order) s =
      .next (s.formTravel.trackerTakes s.startup.own (decodeTravel s.ownTravel) order).chooseOffer := if_pos h

theorem formTravel_only (s : State) : Only (.source :: postParts) s s.formTravel :=
  (s.setSource_only _).seq (post_only _ _ _) (by decide) (by decide)

theorem formTravel_notes (s : State) : Notes (postNotes .travel) s s.formTravel :=
  (s.setSource_notes _).seq (post_notes _ _ _) (by simp) (by simp)

theorem formTravel_source (s : State) : s.formTravel.source = s.source.close := post_only _ _ _ .source (by decide)

theorem formTravel_frames {s : State} (h : s.startup.station ≠ .conflict) :
    s.formTravel.frames .travel = [s.ownTravel] :=
  frames_post _ _ _ h nofun nofun

/-- The content as the own tracker takes it: the source's count, speed, sequence, and the IGN and REV levels (R43). -/
def ownFeed (s : State) : Travel :=
  { count := s.source.count, speed := if s.source.standstill then 0 else s.source.close.speed
    ignition := s.inputs.ign.level, reverse := s.inputs.rev.level, sequence := s.source.close.sequence }

theorem decode_ownTravel {s : State} (h : s.source.count < 65536) : decodeTravel s.ownTravel = s.ownFeed := by
  obtain ⟨ignition, reverse, standstill⟩ := travelFrame_flags s.closeSource
  have count : s.ownTravel.word 0 = s.source.count := travelFrame_count (s := s.closeSource) h
  have speed : s.ownTravel.word 2 = s.source.close.speed :=
    travelFrame_speed (s := s.closeSource) (Nat.lt_of_le_of_lt s.source.close_speed_le (by decide))
  have sequence : s.ownTravel.byte 5 = s.source.close.sequence :=
    travelFrame_sequence (s := s.closeSource) s.source.close_sequence_lt
  unfold decodeTravel
  rw [count, speed, sequence, Nat.min_eq_right s.source.close_speed_le]
  unfold ownTravel
  rw [ignition, reverse, standstill]
  rfl

end State

/-- The own content waits as the one frame of the TRAVEL mailbox (R43, R164). -/
theorem State.ownTravel_queued {s t : State} (kept : t.frames .travel = s.formTravel.frames .travel)
    (station : s.startup.station ≠ .conflict) (count : s.source.count < 65536) :
    ∃ f, t.frames .travel = [f] ∧ f.kind = 4 ∧ f.station = s.startup.own ∧ f.data.length = 6 ∧
      f.word 0 = s.source.count ∧ f.word 2 = s.source.close.speed ∧
      (f.byte 4).testBit 0 = s.inputs.ign.level ∧ (f.byte 4).testBit 1 = s.inputs.rev.level ∧
      (f.byte 4).testBit 2 = s.source.standstill ∧ f.byte 5 = s.source.close.sequence := by
  obtain ⟨ignition, reverse, standstill⟩ := travelFrame_flags s.closeSource
  obtain ⟨kind, -, sender⟩ := State.ownFrame_head s.closeSource 4 0 s.ownTravel.data (by decide) (by decide)
  exact ⟨s.ownTravel, kept.trans (State.formTravel_frames station), kind, sender, rfl,
    travelFrame_count (s := s.closeSource) count,
    travelFrame_speed (s := s.closeSource) (Nat.lt_of_le_of_lt s.source.close_speed_le (by decide)),
    ignition, reverse, standstill, travelFrame_sequence (s := s.closeSource) s.source.close_sequence_lt⟩

/-- A tracker that follows its own station hears the own content as its reference's next TRAVEL (R48, R49). -/
theorem State.ownTravel_heard {s : State} (order : TravelOrder) (state : s.tracker.state = .tracking)
    (reference : s.tracker.reference = some s.startup.own) (new : s.tracker.lastSequence ≠ s.source.close.sequence)
    (count : s.source.count < 65536) :
    let delta := countDelta s.source.count s.tracker.lastCount
    s.formTravel.trackerTakes s.startup.own (decodeTravel s.ownTravel) order =
      (s.formTravel.judgeDistance delta).trackerFollows s.startup.own s.ownFeed (if delta ≤ 600 then delta else 0)
        order := by
  have tracker : s.formTravel.tracker = s.tracker := s.formTravel_only .tracker (by decide)
  have next : s.ownFeed.sequence ≠ s.formTravel.tracker.lastSequence := by
    rw [tracker]
    exact new.symm
  rw [State.decode_ownTravel count, State.trackerTakes_tracking (by rw [tracker, state]) (by rw [tracker, reference]),
    if_pos rfl, State.trackerHears_next next, tracker]
  rfl

/-- Settles O17: the tracker's part by `State.ownTravel_heard` and the frame of what precedes the hand-on. -/
theorem travelTimerFormsTravel : Obligations.TravelTimerFormsTravel := by
  intro order s running delta
  let t := (s.formTravel.trackerTakes s.startup.own (decodeTravel s.ownTravel) order).chooseOffer
  have takes := s.formTravel.trackerTakes_only s.startup.own (decodeTravel s.ownTravel) order
  have takesNotes := s.formTravel.trackerTakes_notes s.startup.own (decodeTravel s.ownTravel) order
  have source : t.source = s.source.close := by
    rw [State.source_chooseOffer]
    exact (takes .source (by decide)).trans s.formTravel_source
  have frames : t.frames .travel = s.formTravel.frames .travel :=
    (State.frames_same (State.chooseOffer_notes _ (.box .travel) (by simp))).trans
      (State.frames_same (takesNotes (.box .travel) (by simp)))
  refine ⟨t, State.execTravelTimerExpiry_eq running order, ?_⟩
  rw [source]
  refine ⟨shiftParts_toList _ _, rfl, rfl, rfl, rfl, rfl, rfl, rfl, rfl, State.ownTravel_queued frames,
    fun state reference new count => ?_, ?_⟩
  · let x := s.formTravel.judgeDistance delta
    let own := Tracker.follow x.cfg s.startup.own s.ownFeed
    have heard : t = (x.trackerFollows s.startup.own s.ownFeed (if delta ≤ 600 then delta else 0) order).chooseOffer :=
      congrArg State.chooseOffer (State.ownTravel_heard order state reference new count)
    have tracker : t.tracker = own := by
      rw [heard, State.tracker_chooseOffer, State.trackerFollows_tracker]
    have only : Only (.source :: postParts) s x :=
      s.formTravel_only.seq (s.formTravel.judgeDistance_only delta) (by decide) (by decide)
    have notes : Notes (.counter .discontinuities :: .flag .travelDiscontinuity :: postNotes .travel) s x :=
      s.formTravel_notes.seq (s.formTravel.judgeDistance_notes delta) (by simp) (by simp)
    have before : x.tracker = s.tracker := only .tracker (by decide)
    rw [tracker]
    refine ⟨rfl, rfl, rfl, rfl, rfl, rfl, rfl, x.setTracker own, ?_, rfl, ?_, ?_⟩
    · exact (s.formTravel.judgeDistance_only delta .source (by decide)).trans s.formTravel_source
    · exact Changes.within (only.append (x.setTracker_only own))
        (notes.seq (x.setTracker_notes own) (by simp) (by simp))
    · rw [heard, State.trackerFollows_eq, before]
      exact Changes.choice _
  · exact Changes.ends (s.formTravel_only.append takes) (s.formTravel_notes.seq takesNotes (by simp) (by simp))

end Sys2Proof.Machine
end

section
/-! PROOFS. SIGHT content, and the timers of an open sighting (O26). -/

namespace Sys2Proof.Machine

open Sys2Proof

/-! ## SIGHT content (R67, R174) -/

/-- The phase of a SIGHT and its marks share byte 0: the phase is bits 0 to 2, the marks stand above it. -/
theorem sightHead_fields (phase : SightPhase) (pm no2 lost : Bool) :
    let head := (BitVec.ofNat 8 (sightPhaseCode phase + 16 * bitsValue [pm, no2, false, lost])).toNat
    head % 8 = sightPhaseCode phase ∧ head.testBit 4 = pm ∧ head.testBit 5 = no2 ∧ head.testBit 7 = lost := by
  cases phase <;> revert pm no2 lost <;> decide

theorem sightFrame_sequence {s : State} (phase : SightPhase) (h : s.detector.sequence < 256) :
    (sightFrame s phase).byte 1 = s.detector.sequence := by
  show (BitVec.ofNat 8 s.detector.sequence).toNat = _
  rw [BitVec.toNat_ofNat]
  exact Nat.mod_eq_of_lt h

theorem sightFrame_peak {s : State} (phase : SightPhase) (h : s.detector.peak < 65536) :
    (sightFrame s phase).word 2 = s.detector.peak := byte2_value h

theorem sightFrame_dsf {s : State} (phase : SightPhase) (h : s.detector.dsf < 65536) :
    (sightFrame s phase).word 4 = s.detector.dsf := byte2_value h

theorem sightFrame_length {s : State} (phase : SightPhase) (h : s.detector.dsf < 65536) :
    (sightFrame s phase).word 6 = if phase.closes then s.detector.dsf else 0 :=
  byte2_value (by split <;> omega)

namespace State

/-- SIGHT content queued with room in its FIFO stands at the end (R164). -/
theorem postSight_frames {s : State} (phase : SightPhase) (station : s.startup.station ≠ .conflict)
    (room : (s.frames .sight).length < 4) :
    (s.postSight phase).frames .sight = s.frames .sight ++ [sightFrame s phase] := by
  have short : s.transmit.boxes.sight.length < sightCapacity := (List.length_map _).symm.trans_lt room
  unfold postSight post
  rw [if_neg fun conflict => station conflict.1, frames_hold]
  simp only [Boxes.put, if_pos short, Boxes.held, List.map_append]
  rfl

/-! ## A sighting reported in one event with a count (R64, R65) -/

/-- SIGHT content queued and counted, before the detector takes its new value. -/
def reportSight (s : State) (phase : SightPhase) (c : Counter) (d : Detector) : State :=
  ((s.postSight phase).count c).setDetector d

theorem execUpdateTimerExpiry_eq {s : State} (h : s.detector.update.isSome = true) : exec .updateTimerExpiry s =
    .next (s.reportSight .update .updatesQueued { s.detector with update := some updateTime }).chooseOffer := if_pos h

theorem execMaxOpenTimerExpiry_eq {s : State} (h : s.detector.maxOpen.isSome = true) : exec .maxOpenTimerExpiry s =
    .next (s.reportSight .forcedClose .forcedCloses
      { s.detector.ended with baselines := tabulate s.reseeded }).chooseOffer := if_pos h

theorem reportSight_changes (s : State) (phase : SightPhase) (c : Counter) (d : Detector) :
    Changes [.detector, .alert] (.counter c :: postNotes .sight) s (s.reportSight phase c d).chooseOffer :=
  Changes.ends (((post_only _ _ _).append (count_only _ c)).append (setDetector_only _ d))
    ((((post_notes _ _ _).mono (by simp)).trans ((count_notes _ c).mono (by simp))).trans
      ((setDetector_notes _ d).mono (by simp)))

theorem reportSight_detector (s : State) (phase : SightPhase) (c : Counter) (d : Detector) :
    (s.reportSight phase c d).chooseOffer.detector = d := detector_chooseOffer _

theorem reportSight_cell (s : State) (phase : SightPhase) {c : Counter} (d : Detector) (h : c ≠ .superseded) :
    (s.reportSight phase c d).chooseOffer.cell c = (s.cell c).add 1 := by
  have queued : (s.postSight phase).cell c = s.cell c := post_notes _ _ _ (.counter c) (by simpa using h)
  calc (s.reportSight phase c d).chooseOffer.cell c
      = (s.reportSight phase c d).cell c := chooseOffer_notes _ (.counter c) (by simp)
    _ = ((s.postSight phase).cell c).add 1 := (cell_count _ c c).trans (if_pos rfl)
    _ = (s.cell c).add 1 := by rw [queued]

theorem reportSight_frames (s : State) (phase : SightPhase) (c : Counter) (d : Detector) :
    (s.reportSight phase c d).chooseOffer.frames .sight = (s.postSight phase).frames .sight :=
  (frames_same (chooseOffer_notes _ (.box .sight) (by simp))).trans
    (frames_same (count_notes (s.postSight phase) c (.box .sight) (by simp)))

theorem reseeded_eq (s : State) (i : Fin 16) : s.reseeded i =
    if s.watched i ∧ (s.slotValue i).isSome then { value := (s.slotValue i).getD 0, seeded := true }
    else s.detector.baselines[i] := by
  unfold reseeded
  cases s.watched i <;> cases s.slotValue i <;> rfl

end State

/-- The content a report queues shows the detector as it stands before the event (R67). -/
theorem State.reportSight_queued {s : State} (phase : SightPhase) (c : Counter) (d : Detector)
    (station : s.startup.station ≠ .conflict) (room : (s.frames .sight).length < 4) (dsf : s.detector.dsf < 65536)
    (peak : s.detector.peak < 65536) (sequence : s.detector.sequence < 256) :
    ∃ f, (s.reportSight phase c d).chooseOffer.frames .sight = s.frames .sight ++ [f] ∧ f.kind = 3 ∧
      f.station = s.startup.own ∧ f.index.val = s.detector.sequence % 16 ∧ f.byte 0 % 8 = sightPhaseCode phase ∧
      (f.byte 0).testBit 4 = s.detector.species.pm ∧ (f.byte 0).testBit 5 = s.detector.species.no2 ∧
      (f.byte 0).testBit 7 = s.detector.travelLost ∧ f.byte 1 = s.detector.sequence ∧ f.word 2 = s.detector.peak ∧
      f.word 4 = s.detector.dsf ∧ f.word 6 = if phase.closes then s.detector.dsf else 0 := by
  obtain ⟨kind, index, sender⟩ := ownFrame_head s 3 (s.detector.sequence % 16) (sightFrame s phase).data (by decide)
    (Nat.mod_lt _ (by decide))
  obtain ⟨code, pm, no2, lost⟩ :=
    sightHead_fields phase s.detector.species.pm s.detector.species.no2 s.detector.travelLost
  exact ⟨sightFrame s phase, (s.reportSight_frames phase c d).trans (postSight_frames phase station room), kind, sender,
    index, code, pm, no2, lost, sightFrame_sequence phase sequence, sightFrame_peak phase peak,
    sightFrame_dsf phase dsf, sightFrame_length phase dsf⟩

/-- Settles O26: both timers report the sighting as it stands, the one as an UPDATE and the other as its forced end. -/
theorem updateAndMaxOpenTimersExpire : Obligations.UpdateAndMaxOpenTimersExpire := by
  intro s d queued
  refine ⟨fun running => ?_, fun running => ?_⟩
  · refine ⟨_, State.execUpdateTimerExpiry_eq running, ?_, ?_, ?_, ?_⟩
    · exact s.reportSight_detector _ _ _
    · exact s.reportSight_cell _ _ nofun
    · exact State.reportSight_queued .update _ _
    · exact s.reportSight_changes _ _ _
  · refine ⟨_, State.execMaxOpenTimerExpiry_eq running, ?_⟩
    rw [State.reportSight_detector]
    refine ⟨rfl, rfl, rfl, rfl, rfl, rfl, rfl, rfl, fun i => ?_, ?_, ?_, ?_⟩
    · exact (tabulate_get _ i).trans (s.reseeded_eq i)
    · exact s.reportSight_cell _ _ nofun
    · exact State.reportSight_queued .forcedClose _ _
    · exact s.reportSight_changes _ _ _

end Sys2Proof.Machine
end

section
/-! PROOFS. The sweep end at the sighting detector (O25): one transition by the excess burdens, and the baselines. -/

namespace Sys2Proof.Machine

open Sys2Proof

/-! ## The largest of a list's values -/

theorem le_foldl_max {α : Type} (f : α → Nat) (l : List α) (m : Nat) :
    m ≤ l.foldl (fun m a => max m (f a)) m ∧ ∀ a ∈ l, f a ≤ l.foldl (fun m a => max m (f a)) m := by
  induction l generalizing m with
  | nil => exact ⟨Nat.le_refl m, nofun⟩
  | cons b bs ih =>
    obtain ⟨start, members⟩ := ih (max m (f b))
    refine ⟨(Nat.le_max_left _ _).trans start, fun a ha => ?_⟩
    rcases List.mem_cons.mp ha with rfl | ha
    · exact (Nat.le_max_right _ _).trans start
    · exact members a ha

theorem foldl_max_attained {α : Type} (f : α → Nat) (l : List α) (m : Nat) :
    l.foldl (fun m a => max m (f a)) m = m ∨ ∃ a ∈ l, l.foldl (fun m a => max m (f a)) m = f a := by
  induction l generalizing m with
  | nil => exact .inl rfl
  | cons b bs ih =>
    rcases ih (max m (f b)) with start | ⟨a, ha, attained⟩
    · rcases max_choice m (f b) with old | new
      · exact .inl (start.trans old)
      · exact .inr ⟨b, List.mem_cons_self, start.trans new⟩
    · exact .inr ⟨a, List.mem_cons_of_mem b ha, attained⟩

/-! ## Watched slots and their excess burdens (R54, R56, R59) -/

namespace State

/-- A slot is watched, as R54 says it: in the sweep range, with plume watch, of kind PM or NO2. -/
def Watches (s : State) (i : Fin 16) : Prop :=
  inSweep s.cfg i = true ∧ s.cfg.slots[i].plumeWatch = true ∧
    (s.cfg.slots[i].kind = .pm ∨ s.cfg.slots[i].kind = .no2)

theorem watched_iff {s : State} {i : Fin 16} : s.watched i = true ↔ s.Watches i := by
  simp [watched, Watches, and_assoc]

theorem mem_watchedSlots {s : State} {i : Fin 16} : i ∈ s.watchedSlots ↔ s.Watches i := by
  rw [watchedSlots, List.mem_filter, watched_iff]
  exact and_iff_right (List.mem_finRange i)

theorem anyAtLeast_iff {s : State} {threshold : Nat} :
    s.anyAtLeast threshold = true ↔ ∃ i, s.Watches i ∧ threshold ≤ s.excessBurden i := by
  simp [anyAtLeast, mem_watchedSlots]

theorem kindStandsOut_iff {s : State} {k : Kind} : s.kindStandsOut k = true ↔
    ∃ i, s.Watches i ∧ s.cfg.slots[i].kind = k ∧ s.cfg.detector.closeThreshold ≤ s.excessBurden i := by
  simp [kindStandsOut, mem_watchedSlots]

theorem excessBurden_le (s : State) (i : Fin 16) : s.excessBurden i ≤ 4000 := by
  unfold excessBurden
  split
  · exact Nat.zero_le _
  · dsimp only
    split
    · exact Nat.min_le_left _ _
    · exact Nat.zero_le _

theorem excessBurden_le_largest {s : State} {i : Fin 16} (h : s.Watches i) : s.excessBurden i ≤ s.largestExcess :=
  (le_foldl_max s.excessBurden s.watchedSlots 0).2 i (mem_watchedSlots.mpr h)

theorem largestExcess_attained (s : State) :
    s.largestExcess = 0 ∨ ∃ i, s.Watches i ∧ s.largestExcess = s.excessBurden i :=
  (foldl_max_attained s.excessBurden s.watchedSlots 0).imp_right fun ⟨i, hi, attained⟩ =>
    ⟨i, mem_watchedSlots.mp hi, attained⟩

/-- Where some slot is watched, the largest excess burden is that of a watched slot. -/
theorem largestExcess_of_watched {s : State} {j : Fin 16} (h : s.Watches j) :
    ∃ i, s.Watches i ∧ s.largestExcess = s.excessBurden i := by
  rcases s.largestExcess_attained with zero | attained
  · exact ⟨j, h, zero.trans (Nat.le_zero.mp (zero ▸ excessBurden_le_largest h)).symm⟩
  · exact attained

theorem largestExcess_le (s : State) : s.largestExcess ≤ 4000 := by
  rcases s.largestExcess_attained with zero | ⟨i, -, attained⟩
  · omega
  · exact attained ▸ s.excessBurden_le i

/-! ## The baselines (R55) -/

theorem nextBaseline_value {s : State} {i : Fin 16} {v : Nat} (watches : s.Watches i) (known : s.slotValue i = some v) :
    s.nextBaseline i =
      { value := if s.detector.baselines[i].seeded then smooth s.cfg.detector.shift s.detector.baselines[i].value v
          else v
        seeded := true } := by
  simp only [nextBaseline, watched_iff.mpr watches, known, if_true]
  split
  · next seeded => rw [seeded]
  · rfl

theorem nextBaseline_kept {s : State} {i : Fin 16} (h : ¬ s.Watches i ∨ s.slotValue i = none) :
    s.nextBaseline i = s.detector.baselines[i] := by
  unfold nextBaseline
  rcases h with unwatched | unknown
  · exact if_neg (mt watched_iff.mp unwatched)
  · rw [unknown]
    exact ite_self _

theorem watched_congr {s t : State} (cfg : t.cfg = s.cfg) (i : Fin 16) : t.watched i = s.watched i := by
  unfold watched
  rw [cfg]

theorem slotValue_congr {s t : State} (records : t.sequencer.records = s.sequencer.records) (i : Fin 16) :
    t.slotValue i = s.slotValue i := by
  unfold slotValue
  rw [records]

/-- The next baselines are read from the configuration, the value records and the present baselines alone. -/
theorem nextBaseline_congr {s t : State} (cfg : t.cfg = s.cfg) (records : t.sequencer.records = s.sequencer.records)
    (baselines : t.detector.baselines = s.detector.baselines) : t.nextBaseline = s.nextBaseline := by
  funext i
  unfold nextBaseline
  rw [watched_congr cfg, slotValue_congr records, baselines, cfg]

end State

/-- Each baseline of `e` is the one of `s` brought up to date: of a watched slot with a known value seeded or smoothed,
and of another as it was (R55). -/
def BaselinesFollow (s : State) (e : Detector) : Prop :=
  ∀ i : Fin 16,
    (∀ v, s.Watches i → s.slotValue i = some v → e.baselines[i] =
      { value := if s.detector.baselines[i].seeded then smooth s.cfg.detector.shift s.detector.baselines[i].value v
          else v
        seeded := true }) ∧
    (¬ s.Watches i ∨ s.slotValue i = none → e.baselines[i] = s.detector.baselines[i])

theorem baselinesFollow_next {s : State} {e : Detector} (h : e.baselines = tabulate s.nextBaseline) :
    BaselinesFollow s e := by
  intro i
  rw [h, tabulate_get]
  exact ⟨fun _ => State.nextBaseline_value, State.nextBaseline_kept⟩

/-- The sweep end is folded into the sighting of `s`: the peak is raised to the largest excess burden, and the species
that stand out join the mask (R60). -/
def SightingFolded (s : State) (e : Detector) : Prop :=
  s.detector.peak ≤ e.peak ∧ (∀ i, s.Watches i → s.excessBurden i ≤ e.peak) ∧
    (e.peak = s.detector.peak ∨ ∃ i, s.Watches i ∧ e.peak = s.excessBurden i) ∧
    (e.species.pm = true ↔ s.detector.species.pm = true ∨ ∃ i, s.Watches i ∧ s.cfg.slots[i].kind = .pm ∧
      s.cfg.detector.closeThreshold ≤ s.excessBurden i) ∧
    (e.species.no2 = true ↔ s.detector.species.no2 = true ∨ ∃ i, s.Watches i ∧ s.cfg.slots[i].kind = .no2 ∧
      s.cfg.detector.closeThreshold ≤ s.excessBurden i)

theorem State.foldSighting_folded (s : State) : SightingFolded s s.foldSighting.detector := by
  refine ⟨Nat.le_max_left _ _, fun i h => (excessBurden_le_largest h).trans (Nat.le_max_right _ _), ?_, ?_, ?_⟩
  · rcases max_choice s.detector.peak s.largestExcess with old | new
    · exact .inl old
    · exact s.largestExcess_attained.imp (fun zero => Nat.max_eq_left (by omega))
        fun ⟨i, watches, attained⟩ => ⟨i, watches, new.trans attained⟩
  · rw [← kindStandsOut_iff]
    exact Bool.or_eq_true_iff
  · rw [← kindStandsOut_iff]
    exact Bool.or_eq_true_iff

/-! ## The detector as its operations leave it -/

namespace State

/-- The detector as a sighting opens (R59). -/
def openedDetector (s : State) : Detector :=
  { s.detector with
    state := .opened, sequence := (s.detector.sequence + 1) % 256, dsf := 0, peak := s.largestExcess
    species := s.standingOut, update := some updateTime, maxOpen := some (seconds s.cfg.detector.maxOpenS) }

theorem openSighting_detector (s : State) : s.openSighting.detector = s.openedDetector :=
  (count_only _ _ .detector (by decide)).trans (post_only _ _ _ .detector (by decide))

theorem openSighting_counted (s : State) :
    s.openSighting.cell .sightingsOpened = (s.cell .sightingsOpened).add 1 := by
  have queued : ((s.setDetector s.openedDetector).postSight .opened).cell .sightingsOpened = s.cell .sightingsOpened :=
    post_notes _ _ _ (.counter .sightingsOpened) (by simp)
  rw [← queued]
  exact (cell_count _ _ _).trans (if_pos rfl)

theorem openSighting_frames (s : State) :
    s.openSighting.frames .sight = ((s.setDetector s.openedDetector).postSight .opened).frames .sight :=
  frames_same (count_notes _ _ (.box .sight) (by simp))

theorem closeSighting_detector (s : State) :
    s.closeSighting.detector = { s.detector.ended with baselines := tabulate s.nextBaseline } := by
  have queued : Only postParts s.abandonSighting (s.abandonSighting.postSight .closed) := post_only _ _ _
  have detector : (s.abandonSighting.postSight .closed).detector = s.detector.ended := queued .detector (by decide)
  have next : (s.abandonSighting.postSight .closed).nextBaseline = s.nextBaseline :=
    nextBaseline_congr (queued .cfg (by decide)) (queued .records (by decide)) (by rw [detector]; rfl)
  calc s.closeSighting.detector
      = { (s.abandonSighting.postSight .closed).detector with
          baselines := tabulate (s.abandonSighting.postSight .closed).nextBaseline } := rfl
    _ = { s.detector.ended with baselines := tabulate s.nextBaseline } := by rw [detector, next]

theorem closeSighting_frames (s : State) :
    s.closeSighting.frames .sight = (s.abandonSighting.postSight .closed).frames .sight :=
  frames_same (followBaselines_notes _ (.box .sight) (by simp))

theorem closeSighting_sightNotes (s : State) : Notes (postNotes .sight) s s.closeSighting :=
  (((setDetector_notes s _).mono (by simp)).trans (post_notes _ _ _)).trans ((followBaselines_notes _).mono (by simp))

/-! ## One transition by state (R57) -/

theorem evaluateDetector_clear {s : State} (state : s.detector.state = .clear) : s.evaluateDetector =
    (s.setDetector { s.detector with
      state := if s.anyAtLeast s.cfg.detector.openThreshold then .pending else .clear }).followBaselines := by
  unfold evaluateDetector
  rw [state]
  dsimp only
  split
  · rfl
  · rw [← state]
    rfl

theorem evaluateDetector_fades {s : State} (state : s.detector.state = .pending)
    (quiet : ¬ s.anyAtLeast s.cfg.detector.openThreshold = true) :
    s.evaluateDetector = (s.setDetector { s.detector with state := .clear }).followBaselines := by
  unfold evaluateDetector
  rw [state]
  exact if_neg quiet

theorem evaluateDetector_opens {s : State} (state : s.detector.state = .pending)
    (opens : s.anyAtLeast s.cfg.detector.openThreshold = true) : s.evaluateDetector = s.openSighting := by
  unfold evaluateDetector
  rw [state]
  exact if_pos opens

theorem evaluateDetector_opened {s : State} (state : s.detector.state = .opened) : s.evaluateDetector =
    s.setDetector { s.foldSighting.detector with
      state := if s.anyAtLeast s.cfg.detector.closeThreshold then .opened else .closing } := by
  unfold evaluateDetector
  rw [state]
  dsimp only
  split
  · rw [← state]
    rfl
  · rfl

theorem evaluateDetector_reopens {s : State} (state : s.detector.state = .closing)
    (stays : s.anyAtLeast s.cfg.detector.closeThreshold = true) :
    s.evaluateDetector = s.setDetector { s.foldSighting.detector with state := .opened } := by
  unfold evaluateDetector
  rw [state]
  exact if_pos stays

theorem evaluateDetector_closes {s : State} (state : s.detector.state = .closing)
    (quiet : ¬ s.anyAtLeast s.cfg.detector.closeThreshold = true) :
    s.evaluateDetector = s.foldSighting.closeSighting := by
  unfold evaluateDetector
  rw [state]
  exact if_neg quiet

theorem detectorSweep_running {s : State} (forward : s.startup.role = .forward)
    (running : s.startup.station = .running) : s.detectorSweep = s.evaluateDetector := by
  unfold detectorSweep
  rw [if_pos forward, running]

end State

/-! ## What the transitions bring about -/

/-- In CLEAR and PENDING the detector takes its new state and the baselines follow; nothing is queued. -/
theorem State.setDetector_follow {s : State} {d : Detector} (h : d.baselines = s.detector.baselines) :
    BaselinesFollow s (s.setDetector d).followBaselines.detector ∧
      Changes [.detector] [] s (s.setDetector d).followBaselines := by
  have next : (s.setDetector d).nextBaseline = s.nextBaseline := nextBaseline_congr rfl rfl h
  exact ⟨baselinesFollow_next (congrArg tabulate next),
    Changes.within ((setDetector_only s d).append (followBaselines_only _))
      ((setDetector_notes s d).trans (followBaselines_notes _))⟩

theorem State.setDetector_changes (s : State) (d : Detector) : Changes [.detector] [] s (s.setDetector d) :=
  Changes.within (setDetector_only s d) (setDetector_notes s d)

/-- The content of an opening sighting shows its new sequence and its peak, at distance 0 (R59, R67). -/
theorem State.openSighting_queued {s : State} (running : s.startup.station = .running)
    (room : (s.frames .sight).length < 4) :
    ∃ f, s.openSighting.frames .sight = s.frames .sight ++ [f] ∧ f.kind = 3 ∧ f.byte 0 % 8 = 1 ∧
      f.byte 1 = s.openedDetector.sequence ∧ f.word 2 = s.openedDetector.peak ∧ f.word 4 = 0 ∧ f.word 6 = 0 := by
  let u := s.setDetector s.openedDetector
  have calm : u.startup.station ≠ .conflict := by
    show s.startup.station ≠ .conflict
    rw [running]
    nofun
  have sequence : u.detector.sequence < 256 := Nat.mod_lt _ (by decide)
  have peak : u.detector.peak < 65536 := Nat.lt_of_le_of_lt s.largestExcess_le (by decide)
  have dsf : u.detector.dsf < 65536 := Nat.zero_lt_succ _
  exact ⟨sightFrame u .opened, s.openSighting_frames.trans (postSight_frames .opened calm room),
    (ownFrame_head u 3 _ _ (by decide) (Nat.mod_lt _ (by decide))).1, (sightHead_fields .opened _ _ _).1,
    sightFrame_sequence .opened sequence, sightFrame_peak .opened peak, sightFrame_dsf .opened dsf,
    sightFrame_length .opened dsf⟩

/-- The content of a closing sighting shows its sequence, and its distance as its length (R61, R67). -/
theorem State.closeSighting_queued {s : State} (running : s.startup.station = .running)
    (room : (s.frames .sight).length < 4) (dsf : s.detector.dsf < 65536) (sequence : s.detector.sequence < 256) :
    ∃ f, s.closeSighting.frames .sight = s.frames .sight ++ [f] ∧ f.kind = 3 ∧ f.byte 0 % 8 = 3 ∧
      f.byte 1 = s.detector.sequence ∧ f.word 4 = s.detector.dsf ∧ f.word 6 = s.detector.dsf := by
  let u := s.abandonSighting
  have calm : u.startup.station ≠ .conflict := by
    show s.startup.station ≠ .conflict
    rw [running]
    nofun
  exact ⟨sightFrame u .closed, s.closeSighting_frames.trans (postSight_frames .closed calm room),
    (ownFrame_head u 3 _ _ (by decide) (Nat.mod_lt _ (by decide))).1, (sightHead_fields .closed _ _ _).1,
    sightFrame_sequence .closed sequence, sightFrame_dsf .closed dsf, sightFrame_length .closed dsf⟩

/-- Settles O25: the transition of each detector state, with the thresholds read as `State.anyAtLeast_iff` says. -/
theorem sweepEndTakesOneDetectorTransition : Obligations.SweepEndTakesOneDetectorTransition := by
  intro s forward running
  rw [State.detectorSweep_running forward running]
  refine ⟨fun state => ?_, fun state quiet => ?_, fun state opens => ?_, fun state => ?_, fun state stays => ?_,
    fun state quiet => ?_⟩
  · rw [State.evaluateDetector_clear state]
    obtain ⟨updated, changes⟩ := State.setDetector_follow (s := s) (d := { s.detector with
      state := if s.anyAtLeast s.cfg.detector.openThreshold then .pending else .clear }) rfl
    exact ⟨fun opens => if_pos (State.anyAtLeast_iff.mpr opens), fun quiet => if_neg (mt State.anyAtLeast_iff.mp quiet),
      updated, rfl, changes⟩
  · rw [State.evaluateDetector_fades state (mt State.anyAtLeast_iff.mp quiet)]
    obtain ⟨updated, changes⟩ := State.setDetector_follow (s := s) (d := { s.detector with state := .clear }) rfl
    exact ⟨rfl, updated, rfl, changes⟩
  · have changes := Changes.within (ps := [.detector, .alert]) s.openSighting_only s.openSighting_notes
    rw [State.evaluateDetector_opens state (State.anyAtLeast_iff.mpr opens), State.openSighting_detector]
    obtain ⟨j, watches, -⟩ := opens
    exact ⟨rfl, rfl, rfl, fun i => State.excessBurden_le_largest, State.largestExcess_of_watched watches,
      State.kindStandsOut_iff, State.kindStandsOut_iff, rfl, rfl, rfl, rfl, s.openSighting_counted,
      State.openSighting_queued running, changes⟩
  · rw [State.evaluateDetector_opened state]
    exact ⟨s.foldSighting_folded, fun stays => if_pos (State.anyAtLeast_iff.mpr stays),
      fun quiet => if_neg (mt State.anyAtLeast_iff.mp quiet), rfl, s.setDetector_changes _⟩
  · rw [State.evaluateDetector_reopens state (State.anyAtLeast_iff.mpr stays)]
    exact ⟨s.foldSighting_folded, rfl, rfl, s.setDetector_changes _⟩
  · have changes := Changes.within (ps := [.detector, .alert])
      (s.foldSighting_only.append s.foldSighting.closeSighting_only)
      ((s.foldSighting_notes.mono (by simp)).trans s.foldSighting.closeSighting_sightNotes)
    rw [State.evaluateDetector_closes state (mt State.anyAtLeast_iff.mp quiet), State.closeSighting_detector]
    exact ⟨s.foldSighting_folded, rfl, rfl, rfl, baselinesFollow_next rfl, rfl, rfl, rfl,
      State.closeSighting_queued (s := s.foldSighting) running, changes⟩

end Sys2Proof.Machine
end

section
/-! PROOFS. A travel notice at the sighting detector and at the plume timeline (O20). -/

namespace Sys2Proof.Machine

open Sys2Proof

/-! ## One record under a delta (R78, R81) -/

namespace PlumeRecord

theorem advance_eq (d : Nat) (r : PlumeRecord) : r.advance d =
    { r with
      df := if r.phase = .engulfed then r.df else r.df - d
      dt := r.dt.map (· - d)
      phase := if r.phase ≠ .engulfed ∧ r.df ≤ d then .engulfed else r.phase
      engulfMs := if r.phase ≠ .engulfed ∧ r.df ≤ d then some 0 else r.engulfMs } := by
  unfold advance
  by_cases inside : r.phase = .engulfed
  · simp [inside]
  · by_cases reached : r.df ≤ d
    · simp [inside, reached, engulf]
    · simp [inside, reached, Nat.sub_eq_zero_iff_le]

theorem backUp_eq (d : Nat) (r : PlumeRecord) : r.backUp d =
    { r with
      df := if r.phase = .engulfed then r.df else min 65535 (r.df + d)
      dt := r.dt.map fun t => min 65535 (t + d) } := by
  unfold backUp
  dsimp only
  split <;> rfl

/-- A record after the delta of a notice; a delta of 0 moves nothing (log 31). -/
def travelled (delta : Nat) (reverse : Bool) (r : PlumeRecord) : PlumeRecord :=
  if delta = 0 then r else if reverse then r.backUp delta else r.advance delta

/-- A record the notice leaves behind: the truck reverses, and the moved record is further than the reverse drop allows
(R81). -/
def isLeft (c : Cfg) (delta : Nat) (reverse : Bool) (r : PlumeRecord) : Bool :=
  (reverse && decide (delta ≠ 0)) && (r.travelled delta reverse).leftBehind c

theorem isLeft_eq (c : Cfg) (delta : Nat) (reverse : Bool) (r : PlumeRecord) : r.isLeft c delta reverse =
    decide (1 ≤ delta ∧ reverse = true ∧ r.phase ≠ .engulfed ∧
      (max 0 r.offset).toNat + c.timeline.reverseDrop < (r.backUp delta).df) := by
  have offset : (r.backUp delta).offset = r.offset := by rw [backUp_eq]
  have ahead : (max 0 r.offset).toNat = r.offset.toNat := by omega
  unfold isLeft travelled leftBehind
  rw [ahead]
  cases reverse
  · simp
  · by_cases still : delta = 0
    · simp [still]
    · simp [still, Nat.one_le_iff_ne_zero, backUp_phase, offset]

theorem travelled_engulfed {delta : Nat} {reverse : Bool} {r : PlumeRecord} (h : r.phase = .engulfed) :
    (r.travelled delta reverse).phase = .engulfed := by
  unfold travelled
  split
  · exact h
  · split
    · rw [backUp_phase, h]
    · exact (r.advance_phase delta).elim id (·.trans h)

end PlumeRecord

/-! ## The records under a notice -/

theorem movedRecords_perm (delta : Nat) (reverse : Bool) (rs : List PlumeRecord) :
    (movedRecords delta reverse rs).Perm (rs.map (PlumeRecord.travelled delta reverse)) := by
  unfold movedRecords PlumeRecord.travelled
  split
  · rw [List.map_id']
  · split <;> exact sortRecords_perm _

/-- A delta puts the records in their order, and delta 0 keeps it. -/
theorem movedRecords_sorted {delta : Nat} (reverse : Bool) {rs : List PlumeRecord}
    (h : 1 ≤ delta ∨ rs.Pairwise InOrder) : (movedRecords delta reverse rs).Pairwise InOrder := by
  rcases h with moves | ordered
  · unfold movedRecords
    rw [if_neg (Nat.ne_of_gt moves)]
    split <;> exact sortRecords_ordered _
  · exact movedRecords_ordered delta reverse ordered

/-- An update that leaves the ENGULFED records ENGULFED adds to their number those it makes so. -/
theorem engulfedCount_map {f : PlumeRecord → PlumeRecord} (h : ∀ r, r.phase = .engulfed → (f r).phase = .engulfed)
    (rs : List PlumeRecord) : engulfedCount (rs.map f) =
      engulfedCount rs + rs.countP fun r => decide (r.phase ≠ .engulfed ∧ (f r).phase = .engulfed) := by
  unfold engulfedCount
  induction rs with
  | nil => rfl
  | cons r rs ih =>
    by_cases before : r.phase = .engulfed
    · simp [before, h r before, ih]
      omega
    · by_cases after : (f r).phase = .engulfed
      · simp [before, after, ih]
        omega
      · simp [before, after, ih]

/-- The number of ENGULFED records rises exactly when some record becomes so. -/
theorem engulfedCount_rises (delta : Nat) (reverse : Bool) (rs : List PlumeRecord) :
    decide (engulfedCount rs < engulfedCount (movedRecords delta reverse rs)) =
      rs.any fun r => decide (r.phase ≠ .engulfed ∧ (r.travelled delta reverse).phase = .engulfed) := by
  have moved : engulfedCount (movedRecords delta reverse rs) =
      engulfedCount (rs.map (PlumeRecord.travelled delta reverse)) :=
    ((movedRecords_perm delta reverse rs).filter _).length_eq
  rw [moved, engulfedCount_map (fun _ => PlumeRecord.travelled_engulfed) rs, Bool.eq_iff_iff, decide_eq_true_iff,
    List.any_eq_true]
  exact (Nat.lt_add_right_iff_pos).trans List.countP_pos_iff

/-- The records that stay after a notice: moved, not left behind, and their tails not passed (R78, R79, R81). -/
def stayingRecords (c : Cfg) (delta : Nat) (reverse : Bool) (rs : List PlumeRecord) : List PlumeRecord :=
  dropPassed ((movedRecords delta reverse rs).filter fun r => !((reverse && decide (delta ≠ 0)) && r.leftBehind c))

/-- The records a notice drops (R81). -/
def droppedRecords (c : Cfg) (delta : Nat) (reverse : Bool) (rs : List PlumeRecord) : List PlumeRecord :=
  (movedRecords delta reverse rs).filter fun r => (reverse && decide (delta ≠ 0)) && r.leftBehind c

theorem stayingRecords_perm (c : Cfg) (delta : Nat) (reverse : Bool) (rs : List PlumeRecord) :
    (stayingRecords c delta reverse rs).Perm
      (dropPassed ((rs.filter fun r => !r.isLeft c delta reverse).map (PlumeRecord.travelled delta reverse))) := by
  have kept := ((movedRecords_perm delta reverse rs).filter
    fun r => !((reverse && decide (delta ≠ 0)) && r.leftBehind c)).filter fun r => !r.passed
  rw [List.filter_map] at kept
  exact kept

theorem droppedRecords_length (c : Cfg) (delta : Nat) (reverse : Bool) (rs : List PlumeRecord) :
    (droppedRecords c delta reverse rs).length = (rs.filter fun r => r.isLeft c delta reverse).length := by
  have dropped := ((movedRecords_perm delta reverse rs).filter
    fun r => (reverse && decide (delta ≠ 0)) && r.leftBehind c).length_eq
  rw [List.filter_map, List.length_map] at dropped
  exact dropped

theorem stayingRecords_sorted {c : Cfg} {delta : Nat} {reverse : Bool} {rs : List PlumeRecord}
    (h : 1 ≤ delta ∨ rs.Pairwise InOrder) : (stayingRecords c delta reverse rs).Pairwise InOrder :=
  (movedRecords_sorted reverse h).sublist ((dropPassed_sublist _).trans List.filter_sublist)

/-! ## The notice at the two blocks -/

namespace State

theorem detectorTravel_open {s : State} (forward : s.startup.role = .forward)
    (h : s.detector.state = .opened ∨ s.detector.state = .closing) (delta : Nat) (reverse : Bool) :
    s.detectorTravel delta reverse = s.setDetector { s.detector with
      dsf := if reverse then s.detector.dsf - delta else min 65535 (s.detector.dsf + delta) } := if_pos ⟨forward, h⟩

theorem detectorTravel_closed {s : State} (h : s.detector.state = .clear ∨ s.detector.state = .pending) (delta : Nat)
    (reverse : Bool) : s.detectorTravel delta reverse = s := by
  refine if_neg fun ⟨_, running⟩ => ?_
  rcases h with h | h <;> simp [h] at running

/-- The timeline as a notice leaves it, before the PLUME state is judged: the records that stay, armed within the new
lead, and the dropped ones counted. -/
def noticed (s : State) (delta : Nat) (reverse : Bool) (speed : Nat) : State :=
  State.bump
    { s with
      timeline := { s.timeline with
        records := (stayingRecords s.cfg delta reverse s.timeline.records).map (PlumeRecord.arm (s.leadFor speed))
        lead := s.leadFor speed } }
    .reverseDropped (droppedRecords s.cfg delta reverse s.timeline.records).length

/-- A notice engulfs or arms some record (R78, R80, R84). -/
def noticeHolds (s : State) (delta : Nat) (reverse : Bool) (speed : Nat) : Bool :=
  (s.timeline.records.any fun r =>
    decide (r.phase ≠ .engulfed ∧ (r.travelled delta reverse).phase = .engulfed)) ||
  anyArms (s.leadFor speed) (stayingRecords s.cfg delta reverse s.timeline.records)

theorem timelineTravel_works {s : State} (role : s.startup.role = .inlet) (station : s.startup.station ≠ .loading)
    (delta : Nat) (reverse : Bool) (speed : Nat) : s.timelineTravel delta reverse speed =
      (s.noticed delta reverse speed).judgePlume (s.noticeHolds delta reverse speed) := by
  have works := timelineWorks_iff.mpr ⟨role, station⟩
  unfold timelineTravel
  rw [if_neg (by simp [works])]
  dsimp only
  rw [engulfedCount_rises]
  unfold noticed noticeHolds stayingRecords droppedRecords
  cases reverse && decide (delta ≠ 0)
  · simp
  · rfl

theorem noticed_only (s : State) (delta : Nat) (reverse : Bool) (speed : Nat) :
    Only [.plumes, .lead, .counters, .flagBits, .alert] s (s.noticed delta reverse speed) :=
  (s.setMoved_only _ _).append (bump_only _ _ _)

theorem noticed_notes (s : State) (delta : Nat) (reverse : Bool) (speed : Nat) :
    Notes [.counter .reverseDropped, .flag .counterRollover] s (s.noticed delta reverse speed) :=
  ((s.setMoved_notes _ _).mono (by simp)).trans (bump_notes _ _ _)

theorem noticed_timeline (s : State) (delta : Nat) (reverse : Bool) (speed : Nat) :
    (s.noticed delta reverse speed).timeline =
      { s.timeline with
        records := (stayingRecords s.cfg delta reverse s.timeline.records).map (PlumeRecord.arm (s.leadFor speed))
        lead := s.leadFor speed } := timeline_bump _ _ _

theorem noticed_dropped (s : State) (delta : Nat) (reverse : Bool) (speed : Nat) :
    (s.noticed delta reverse speed).cell .reverseDropped = (s.cell .reverseDropped).add
      (s.timeline.records.filter fun r => r.isLeft s.cfg delta reverse).length := by
  rw [← droppedRecords_length]
  exact (cell_bump _ _ _ _).trans (if_pos rfl)

theorem timelineTravel_lead {s : State} (role : s.startup.role = .inlet) (station : s.startup.station ≠ .loading)
    (delta : Nat) (reverse : Bool) (speed : Nat) :
    (s.timelineTravel delta reverse speed).timeline.lead = s.leadFor speed := by
  rw [timelineTravel_works role station]
  exact (judgePlume_only _ _ .lead (by decide)).trans (congrArg Timeline.lead (s.noticed_timeline delta reverse speed))

theorem timelineTravel_records {s : State} (role : s.startup.role = .inlet) (station : s.startup.station ≠ .loading)
    (delta : Nat) (reverse : Bool) (speed : Nat) : (s.timelineTravel delta reverse speed).timeline.records =
      (stayingRecords s.cfg delta reverse s.timeline.records).map (PlumeRecord.arm (s.leadFor speed)) := by
  rw [timelineTravel_works role station, judgePlume_records, noticed_timeline]

theorem timelineTravel_dropped {s : State} (role : s.startup.role = .inlet) (station : s.startup.station ≠ .loading)
    (delta : Nat) (reverse : Bool) (speed : Nat) : (s.timelineTravel delta reverse speed).cell .reverseDropped =
      (s.cell .reverseDropped).add (s.timeline.records.filter fun r => r.isLeft s.cfg delta reverse).length := by
  rw [timelineTravel_works role station, ← noticed_dropped]
  exact judgePlume_notes _ _ (.counter .reverseDropped) (by simp)

end State

/-- Settles O20: the state before the judgement is `State.noticed`, whose records stand in the statement's order but for
the sorting, which neither the judgement nor the two filters see. -/
theorem travelMovesTheSightingAndTheRecords : Obligations.TravelMovesTheSightingAndTheRecords := by
  refine ⟨fun s delta reverse forward =>
      ⟨fun running => ?_, fun closed => State.detectorTravel_closed closed delta reverse⟩,
    fun s delta speed reverse role station => ?_⟩
  · rw [State.detectorTravel_open forward running]
    rfl
  intro t ahead back moved leaves passes arms kept became d steps closing
  have lead : t.timeline.lead = s.leadFor speed := State.timelineTravel_lead role station delta reverse speed
  have records := State.timelineTravel_records role station delta reverse speed
  have moves : moved = PlumeRecord.travelled delta reverse := by
    funext r
    unfold PlumeRecord.travelled
    rw [PlumeRecord.advance_eq, PlumeRecord.backUp_eq]
  have left : leaves = PlumeRecord.isLeft s.cfg delta reverse := by
    funext r
    rw [PlumeRecord.isLeft_eq, PlumeRecord.backUp_eq]
  have staying : (stayingRecords s.cfg delta reverse s.timeline.records).Perm kept := by
    show List.Perm _ (dropPassed ((s.timeline.records.filter fun r => !leaves r).map moved))
    rw [moves, left]
    exact stayingRecords_perm _ _ _ _
  have arming : arms = fun r => decide (r.phase = .approaching) && decide (r.df ≤ s.leadFor speed) := by
    funext r
    show decide (_ ∧ r.df ≤ t.timeline.lead) = _
    rw [lead, Bool.decide_and]
  have begun : s.noticeHolds delta reverse speed = became := by
    unfold State.noticeHolds anyArms
    rw [← moves, ← arming, staying.any_eq]
  have armed : PlumeRecord.arm (s.leadFor speed) = fun r => if arms r then { r with phase := .armed } else r := by
    funext r
    rw [arming]
    simp [PlumeRecord.arm]
  refine ⟨lead, ?_, fun ordered => ?_, ⟨s.noticed delta reverse speed, ?_, ?_⟩, ?_, ?_⟩
  · rw [records, armed]
    exact staying.map _
  · unfold RecordsOrdered
    rw [records]
    exact map_ordered _ (PlumeRecord.arm_keeps _) (stayingRecords_sorted ordered)
  · exact Changes.within (s.noticed_only delta reverse speed) (s.noticed_notes delta reverse speed)
  · rw [← begun, ← State.timelineTravel_works role station]
    exact Changes.within (Only.refl [] _) (Notes.refl [] _)
  · rw [left]
    exact State.timelineTravel_dropped role station delta reverse speed
  · exact Changes.within (s.timelineTravel_only delta reverse speed) (s.timelineTravel_notes delta reverse speed)

end Sys2Proof.Machine
end

section
/-! PROOFS. The PLUME state at the end of an event (O29): R84's table, row by row. -/

namespace Sys2Proof.Machine

open Sys2Proof

/-! ## The PLUME entry in the demand list (R84, R94) -/

theorem mem_placeEntry (e : DemandEntry) (l : List DemandEntry) : e ∈ placeEntry e l := by
  induction l with
  | nil => exact List.mem_cons_self
  | cons x xs ih =>
    unfold placeEntry
    split
    · exact List.mem_cons_of_mem _ ih
    · exact List.mem_cons_self

/-- An inserted entry stands in the list, with a stamp of its own. -/
theorem DemandList.mem_insert (l : DemandList) (e : DemandEntry) :
    { e with stamp := l.renumbered.nextStamp } ∈ (l.insert e).entries := mem_placeEntry _ _

theorem DemandList.holds_eq_false {l : DemandList} {n : Fin 8} {source : Fin 16} :
    l.holds n source = false ↔ ∀ e ∈ l.entries, ¬ (e.station = n ∧ e.source = source) := by
  simp [DemandList.holds, DemandEntry.hasKey]

/-- The post-hold has begun; with a post-hold of 0 the PLUME state is OFF at once (R84). -/
def PostHoldBegun (s t : State) : Prop :=
  (0 < s.cfg.timeline.postHoldS →
    t.timeline.hold = .postHold ∧ t.timeline.postHold = some (s.cfg.timeline.postHoldS * 1000)) ∧
  (s.cfg.timeline.postHoldS = 0 → t.timeline.hold = .off ∧ t.timeline.postHold = none)

/-- The PLUME entry stands in the list of `t`: RECIRC at the plume level of `s`, a local entry (R84, R99). -/
def PlumeEntryStands (s t : State) : Prop :=
  ∃ e ∈ t.demands.entries, e.station = s.startup.own ∧ e.source = 0 ∧ e.regime = .recirc ∧
    e.level = s.cfg.timeline.plumeLevel ∧ e.hold = none

namespace State

/-! ## Raising, withdrawing and the post-hold -/

theorem raisePlume_postHold (s : State) : s.raisePlume.timeline.postHold = none := by
  have ⟨_, timer⟩ := raiseLocal_only ((s.setHold .held none).count .plumeClosures) 0 .recirc
    s.cfg.timeline.plumeLevel .plumeHold (by decide)
  exact timer.trans (congrArg Timeline.postHold (timeline_count _ _))

theorem raisePlume_counted (s : State) : s.raisePlume.cell .plumeClosures = (s.cell .plumeClosures).add 1 :=
  (raiseLocal_notes _ 0 .recirc s.cfg.timeline.plumeLevel (.counter .plumeClosures) (by simp)).trans
    ((cell_count _ _ _).trans (if_pos rfl))

/-- A raised PLUME entry stands in a list with room for it. -/
theorem raisePlume_entry {s : State} (inlet : s.startup.role = .inlet) (station : s.startup.station ≠ .loading)
    (room : s.demands.entries.length < 16) (free : s.demands.holds s.startup.own 0 = false) :
    PlumeEntryStands s s.raisePlume := by
  let u := (s.setHold .held none).count .plumeClosures
  have only : Only noteParts (s.setHold .held none) u := count_only _ _
  have demands : u.demands = s.demands := only .demands (by decide)
  have own : u.startup.own = s.startup.own := (only .straps (by decide)).1
  have works : u.listWorks = true :=
    (listWorks_iff u).mpr ⟨(only .role (by decide)).trans inlet,
      fun loading => station ((only .station (by decide)).symm.trans loading)⟩
  obtain ⟨inserted, -⟩ := (u.insertLocal_raised 0 .recirc s.cfg.timeline.plumeLevel works).room
    (by rw [demands, own]; exact DemandList.holds_eq_false.mp free) (by rw [demands]; exact room)
  have raised : s.raisePlume.demands = _ := (reselect_only _ .demands (by decide)).trans inserted
  refine ⟨_, raised ▸ DemandList.mem_insert _ _, own, rfl, rfl, rfl, rfl⟩

theorem withdrawPlume_postHold (s : State) : s.withdrawPlume.timeline.postHold = none :=
  (withdrawLocal_only (s.setHold .off none) 0 .plumeHold (by decide)).2

theorem startPostHold_waits {s : State} (h : 0 < s.cfg.timeline.postHoldS) :
    s.startPostHold = s.setHold .postHold (some (seconds s.cfg.timeline.postHoldS)) := if_neg (Nat.ne_of_gt h)

theorem startPostHold_begun (s : State) : PostHoldBegun s s.startPostHold := by
  refine ⟨fun some => ?_, fun zero => ?_⟩
  · rw [startPostHold_waits some]
    exact ⟨rfl, rfl⟩
  · rw [show s.startPostHold = s.withdrawPlume from if_pos zero]
    exact ⟨s.withdrawPlume_hold, s.withdrawPlume_postHold⟩

/-- The post-hold counts no plume closure. -/
theorem startPostHold_uncounted (s : State) : s.startPostHold.cell .plumeClosures = s.cell .plumeClosures := by
  unfold startPostHold
  split
  · exact withdrawLocal_notes (s.setHold .off none) 0 (.counter .plumeClosures) (by simp)
  · rfl

/-! ## The rows of R84's table -/

theorem beginHold_off {s : State} (off : s.timeline.hold = .off) : s.beginHold true = s.raisePlume := by
  unfold beginHold
  rw [off]
  rfl

theorem beginHold_postHold {s : State} (post : s.timeline.hold = .postHold) :
    s.beginHold true = s.setHold .held none := by
  unfold beginHold
  rw [post]
  rfl

theorem beginHold_held {s : State} (held : s.timeline.hold = .held) (became : Bool) : s.beginHold became = s := by
  unfold beginHold
  rw [held]

/-- OFF and POST_HOLD stay when no record became ARMED or ENGULFED. -/
theorem judgePlume_rests {s : State} (h : s.timeline.hold ≠ .held) : s.judgePlume false = s := by
  have same : s.beginHold false = s := by
    unfold beginHold
    split <;> rfl
  rw [judgePlume_eq, same]
  exact if_neg fun ends => h ends.1

/-- A PLUME state that is HELD, or has become so, ends the event so, or in the post-hold when no record is left. -/
theorem judgePlume_of_held {s : State} {became : Bool} (h : s.timeline.hold = .held ∨ became = true) :
    s.judgePlume became =
      if s.plumeCount = 0 then (s.beginHold became).startPostHold else s.beginHold became := by
  have count : (s.beginHold became).plumeCount = s.plumeCount :=
    plumeCount_congr (s.beginHold_only became .plumes (by decide)).1
  rw [judgePlume_eq, count]
  simp [(s.beginHold_held_iff became).mpr h]

theorem judgePlume_ends {s : State} {became : Bool} (h : s.timeline.hold = .held ∨ became = true)
    (none : s.plumeCount = 0) : s.judgePlume became = (s.beginHold became).startPostHold :=
  (judgePlume_of_held h).trans (if_pos none)

theorem judgePlume_stays {s : State} {became : Bool} (h : s.timeline.hold = .held ∨ became = true)
    (some : 0 < s.plumeCount) : s.judgePlume became = s.beginHold became :=
  (judgePlume_of_held h).trans (if_neg (Nat.ne_of_gt some))

theorem judgePlume_begun {s : State} {became : Bool} (h : s.timeline.hold = .held ∨ became = true)
    (none : s.plumeCount = 0) : PostHoldBegun s (s.judgePlume became) := by
  have cfg : (s.beginHold became).cfg = s.cfg := s.beginHold_only became .cfg (by decide)
  have begun := (s.beginHold became).startPostHold_begun
  rw [judgePlume_ends h none]
  unfold PostHoldBegun at *
  rw [cfg] at begun
  exact begun

/-- From OFF the closure is counted once, whether or not its record is left at the end of the event. -/
theorem judgePlume_counted {s : State} (off : s.timeline.hold = .off) :
    (s.judgePlume true).cell .plumeClosures = (s.cell .plumeClosures).add 1 := by
  rw [judgePlume_of_held (.inr rfl), beginHold_off off]
  split
  · exact (startPostHold_uncounted _).trans s.raisePlume_counted
  · exact s.raisePlume_counted

/-- The entry raised from OFF outlasts the judgement, but for a post-hold of 0 with no record left. -/
theorem judgePlume_demands {s : State} (off : s.timeline.hold = .off)
    (lasts : 0 < s.plumeCount ∨ 0 < s.cfg.timeline.postHoldS) :
    (s.judgePlume true).demands = s.raisePlume.demands := by
  rw [judgePlume_of_held (.inr rfl), beginHold_off off]
  split
  · next none =>
    have waits : 0 < s.raisePlume.cfg.timeline.postHoldS := by
      rw [show s.raisePlume.cfg = s.cfg from s.raisePlume_only .cfg (by decide)]
      exact lasts.resolve_left (Nat.not_lt.mpr (Nat.le_zero.mpr none))
    rw [startPostHold_waits waits]
    rfl
  · rfl

end State

/-- Settles O29, row by row of R84's table. -/
theorem plumeDemandFollowsTheRecords : Obligations.PlumeDemandFollowsTheRecords := by
  intro s became t started
  refine ⟨s.judgePlume_records became, fun none rest => ?_, fun off raised => ?_, fun held some => ?_,
    fun held none => ?_, fun post armed some => ?_⟩
  · subst none
    exact State.judgePlume_rests rest
  · subst raised
    refine ⟨State.judgePlume_counted off, State.judgePlume_begun (.inr rfl), fun some => ?_,
      fun inlet station room free lasts => ?_⟩
    · have stays : t = s.raisePlume := (State.judgePlume_stays (.inr rfl) some).trans (State.beginHold_off off)
      rw [stays]
      exact ⟨s.raisePlume_hold, s.raisePlume_postHold⟩
    · rw [show t.demands = s.raisePlume.demands from State.judgePlume_demands off lasts]
      exact State.raisePlume_entry inlet station room free
  · exact (State.judgePlume_stays (.inl held) some).trans (State.beginHold_held held became)
  · refine ⟨State.judgePlume_begun (.inl held) none, ?_⟩
    have ends : t = s.startPostHold := by
      rw [show t = _ from State.judgePlume_ends (.inl held) none, State.beginHold_held held]
    rw [ends]
    exact s.startPostHold_uncounted
  · subst armed
    have stays : t = s.setHold .held none :=
      (State.judgePlume_stays (.inr rfl) some).trans (State.beginHold_postHold post)
    rw [stays]
    exact ⟨rfl, rfl, rfl⟩

end Sys2Proof.Machine
end

section
/-! PROOFS. The caps and the post-hold expire (O30). -/

namespace Sys2Proof.Machine

open Sys2Proof

/-- An event that ends with the judgement: what its update before it touches. -/
theorem PlumeJudged.ends {ps qs : List Part} {ns : List Note} {s u : State} (became : Bool) (only : Only qs s u)
    (notes : Notes ns s u) (inside : qs ⊆ .offer :: .boxes :: .counters :: .flagBits :: .plumes :: ps := by decide)
    (ho : Part.offer ∉ qs := by decide) : PlumeJudged ps ns became s (u.judgePlume became).chooseOffer :=
  ⟨u, Changes.within only notes inside ho, Changes.choice _⟩

/-- The frame of such an event: the update's, and the PLUME state's. -/
theorem Changes.judged {ps : List Part} {ns ms : List Note} {s u : State} (became : Bool) (only : Only ps s u)
    (notes : Notes ns s u) (inside : ns ⊆ ms) (hold : holdNotes ⊆ ms) {qs : List Part}
    (parts : ps ++ .plumeHold :: listParts ⊆ .offer :: .boxes :: .counters :: .flagBits :: qs := by decide)
    (ho : Part.offer ∉ ps ++ .plumeHold :: listParts := by decide) :
    Changes qs ms s (u.judgePlume became).chooseOffer :=
  Changes.ends (only.append (u.judgePlume_only became)) (notes.seq (u.judgePlume_notes became) inside hold) parts ho

theorem PlumeRecord.hasKey_iff {r : PlumeRecord} {origin : Fin 8} {sequence : Nat} :
    r.hasKey origin sequence = true ↔ r.origin = origin ∧ r.sequence = sequence := decide_eq_true_iff

/-- The records of other keys, as a filter. -/
theorem PlumeRecord.not_hasKey (origin : Fin 8) (sequence : Nat) : (fun r : PlumeRecord => !r.hasKey origin sequence) =
    fun r => decide ¬ (r.origin = origin ∧ r.sequence = sequence) := funext fun _ => decide_not.symm

namespace State

theorem cell_chooseOffer (s : State) (c : Counter) : s.chooseOffer.cell c = s.cell c :=
  s.chooseOffer_notes (.counter c) (by simp)

/-- The record of a key engulfed, in its place in the order (R83). -/
def engulfKey (s : State) (origin : Fin 8) (sequence : Nat) : State :=
  s.setRecords (sortRecords (s.timeline.records.map fun x => if x.hasKey origin sequence then x.engulf else x))

/-- The record of a key removed and counted as capped (R85). -/
def capKey (s : State) (origin : Fin 8) (sequence : Nat) : State :=
  (s.setRecords (s.timeline.records.filter fun x => !x.hasKey origin sequence)).count .capped

theorem capKey_only (s : State) (origin : Fin 8) (sequence : Nat) :
    Only (.plumes :: noteParts) s (s.capKey origin sequence) := (s.setRecords_only _).append (count_only _ _)

theorem capKey_notes (s : State) (origin : Fin 8) (sequence : Nat) :
    Notes [.counter .capped, .flag .counterRollover] s (s.capKey origin sequence) :=
  (s.setRecords_notes _).seq (count_notes _ _) (by simp) (by simp)

theorem capKey_counted (s : State) (origin : Fin 8) (sequence : Nat) :
    (s.capKey origin sequence).cell .capped = (s.cell .capped).add 1 := (cell_count _ _ _).trans (if_pos rfl)

/-! ## The cap expiries, by whether the cap is reached -/

/-- The record of a key has reached the approach cap (R83). -/
def ApproachCapReached (s : State) (origin : Fin 8) (sequence : Nat) : Prop :=
  ∃ r, s.findRecord origin sequence = some r ∧ r.phase ≠ .engulfed ∧
    s.cfg.timeline.approachCapS * 1000 ≤ r.ageMs

/-- The record of a key has reached the engulf cap (R85). -/
def EngulfCapReached (s : State) (origin : Fin 8) (sequence : Nat) : Prop :=
  ∃ r, s.findRecord origin sequence = some r ∧ r.phase = .engulfed ∧
    s.cfg.timeline.engulfCapS * 1000 ≤ r.engulfMs.getD 0

theorem approachCapExpiry_reached {origin : Fin 8} {q : Fin 256} {s : State} (h : s.ApproachCapReached origin q.val) :
    exec (.approachCapExpiry origin q) s = .next ((s.engulfKey origin q.val).judgePlume true).chooseOffer := by
  obtain ⟨r, found, outside, age⟩ := h
  show execApproachCapExpiry origin q s = _
  unfold execApproachCapExpiry
  rw [found]
  exact if_neg (not_or.mpr ⟨outside, Nat.not_lt.mpr age⟩)

theorem approachCapExpiry_early {origin : Fin 8} {q : Fin 256} {s : State} (h : ¬ s.ApproachCapReached origin q.val) :
    exec (.approachCapExpiry origin q) s = .next s.chooseOffer := by
  show execApproachCapExpiry origin q s = _
  unfold execApproachCapExpiry
  split
  · rfl
  · next r found =>
    refine if_pos (Decidable.byContradiction fun reached => h ?_)
    obtain ⟨outside, age⟩ := not_or.mp reached
    exact ⟨r, found, outside, Nat.not_lt.mp age⟩

theorem engulfCapExpiry_reached {origin : Fin 8} {q : Fin 256} {s : State} (h : s.EngulfCapReached origin q.val) :
    exec (.engulfCapExpiry origin q) s = .next ((s.capKey origin q.val).judgePlume false).chooseOffer := by
  obtain ⟨r, found, inside, time⟩ := h
  show execEngulfCapExpiry origin q s = _
  unfold execEngulfCapExpiry
  rw [found]
  exact if_pos ⟨inside, time⟩

theorem engulfCapExpiry_early {origin : Fin 8} {q : Fin 256} {s : State} (h : ¬ s.EngulfCapReached origin q.val) :
    exec (.engulfCapExpiry origin q) s = .next s.chooseOffer := by
  show execEngulfCapExpiry origin q s = _
  unfold execEngulfCapExpiry
  split
  · rfl
  · next r found => exact if_neg fun reached => h ⟨r, found, reached⟩

/-! ## The post-hold's expiry (R86) -/

theorem postHoldExpiry_withdraws {s : State} (post : s.timeline.hold = .postHold)
    (runs : s.timeline.postHold.isSome = true) : exec .postHoldExpiry s = .next s.withdrawPlume.chooseOffer :=
  if_pos ⟨post, runs⟩

/-- Withdrawing raises nothing: of the list's notes those of the regime's targets alone. -/
theorem withdrawPlume_rampNotes (s : State) : Notes rampNotes s s.withdrawPlume := by
  have removed (u : State) : Notes rampNotes u (u.withdrawLocal 0) := by
    unfold withdrawLocal
    exact Notes.ite (Notes.refl _ _) ((setDemands_notes _ _).seq (reselect_notes _) (by simp) (List.Subset.refl _))
  exact (s.setHold_notes .off none).seq (removed _) (by simp) (List.Subset.refl _)

/-- At an INLET the withdrawal is the end of the condition PLUME, demand source 0 (R99). -/
theorem withdrawPlume_handed {s : State} (inlet : s.startup.role = .inlet) :
    ConditionHanded 0 .recirc s.cfg.timeline.plumeLevel false (s.setHold .off none) s.withdrawPlume := by
  have handed := (s.setHold .off none).conditionChanged_handed 0 .recirc s.cfg.timeline.plumeLevel false
    (absurd inlet)
  rw [show (s.setHold .off none).conditionChanged 0 .recirc s.cfg.timeline.plumeLevel false = s.withdrawPlume from
    if_pos inlet] at handed
  exact handed

end State

/-- Settles O30: each cap by whether it is reached, and the post-hold's expiry as the end of the condition PLUME. -/
theorem capsAndPostHoldExpire : Obligations.CapsAndPostHoldExpire := by
  intro origin q s approachCap engulfCap
  refine ⟨?_, ?_, fun post runs =>
    ⟨_, State.postHoldExpiry_withdraws post runs, ?_, ?_, fun inlet station => ?_, ?_⟩⟩
  · by_cases reached : s.ApproachCapReached origin q.val
    · refine ⟨_, State.approachCapExpiry_reached reached, fun _ _ _ _ => ⟨?_, ?_, ?_, ?_⟩, fun early => ?_⟩
      · rw [State.timeline_chooseOffer, State.judgePlume_records]
        simp only [← PlumeRecord.hasKey_iff]
        exact sortRecords_perm _
      · unfold RecordsOrdered
        rw [State.timeline_chooseOffer, State.judgePlume_records]
        exact sortRecords_ordered _
      · exact PlumeJudged.ends true (s.setRecords_only _) (s.setRecords_notes _)
      · exact Changes.judged true (s.setRecords_only _) (s.setRecords_notes _) (by simp) (List.Subset.refl _)
      · obtain ⟨r, found, outside, age⟩ := reached
        exact absurd (early r found) (not_or.mpr ⟨outside, Nat.not_lt.mpr age⟩)
    · exact ⟨_, State.approachCapExpiry_early reached,
        fun r found outside age => absurd ⟨r, found, outside, age⟩ reached, fun _ => Changes.choice s⟩
  · by_cases reached : s.EngulfCapReached origin q.val
    · refine ⟨_, State.engulfCapExpiry_reached reached, fun _ _ _ _ _ _ => ⟨?_, ?_, ?_, ?_⟩, fun early => ?_⟩
      · rw [State.timeline_chooseOffer, State.judgePlume_records, State.capKey, State.timeline_count,
          PlumeRecord.not_hasKey]
        rfl
      · rw [State.cell_chooseOffer]
        exact ((s.capKey origin q.val).judgePlume_notes false (.counter .capped) (by simp)).trans
          (s.capKey_counted origin q.val)
      · exact PlumeJudged.ends false (s.capKey_only origin q.val) (s.capKey_notes origin q.val)
      · exact Changes.judged false (s.capKey_only origin q.val) (s.capKey_notes origin q.val) (by simp) (by simp)
      · obtain ⟨r, found, inside, time⟩ := reached
        rcases early r found with outside | ⟨m, some, less⟩
        · exact absurd inside outside
        · rw [some] at time
          exact absurd less (Nat.not_lt.mpr time)
    · refine ⟨_, State.engulfCapExpiry_early reached, fun r m found inside some time => absurd ?_ reached,
        fun _ => Changes.choice s⟩
      exact ⟨r, found, inside, by rw [some]; exact time⟩
  · rw [State.timeline_chooseOffer]
    exact s.withdrawPlume_hold
  · rw [State.timeline_chooseOffer]
    exact s.withdrawPlume_postHold
  · have handed := (State.withdrawPlume_handed inlet).chooseOffer
    obtain ⟨selected, targets⟩ := handed.selected inlet station
    exact ⟨congrArg DemandList.entries (handed.withdrawn inlet station rfl).1, selected, targets⟩
  · exact Changes.ends (s.withdrawPlume_only) s.withdrawPlume_rampNotes

end Sys2Proof.Machine
end

section
/-! PROOFS. A SIGHT at the timeline: decoded, ignored, or refining a held record (O27). -/

namespace Sys2Proof.Machine

open Sys2Proof

/-! ## The decoded SIGHT (R73) -/

theorem sightPhaseOfCode_eq_some {c : Nat} {p : SightPhase} :
    sightPhaseOfCode c = some p ↔ sightPhaseCode p = c := by
  constructor
  · intro h
    unfold sightPhaseOfCode at h
    split at h <;> cases h <;> rfl
  · rintro rfl
    cases p <;> rfl

theorem sightPhaseCode_range (p : SightPhase) : 1 ≤ sightPhaseCode p ∧ sightPhaseCode p ≤ 4 := by
  cases p <;> decide

theorem exists_sightPhaseCode {c : Nat} (lo : 1 ≤ c) (hi : c ≤ 4) : ∃ p, sightPhaseCode p = c := by
  interval_cases c
  exacts [⟨.opened, rfl⟩, ⟨.update, rfl⟩, ⟨.closed, rfl⟩, ⟨.forcedClose, rfl⟩]

theorem closes_iff {p : SightPhase} : p.closes = true ↔ sightPhaseCode p = 3 ∨ sightPhaseCode p = 4 := by
  cases p <;> decide

/-- A frame's SIGHT of a phase (R73). -/
def sightOf (c : Cfg) (f : Frame) (p : SightPhase) : Sight :=
  { origin := f.station, sequence := f.byte 1, phase := p
    species := ⟨(f.byte 0).testBit 4 && c.timeline.mask.pm, (f.byte 0).testBit 5 && c.timeline.mask.no2⟩
    travelLost := (f.byte 0).testBit 7, peak := min 4000 (f.word 2), dsf := f.word 4, length := f.word 6 }

theorem decodeSight_usable {f : Frame} {p : SightPhase} (c : Cfg) (h : sightPhaseCode p = f.byte 0 % 8) :
    decodeSight c f = some (sightOf c f p) := by
  unfold decodeSight
  rw [sightPhaseOfCode_eq_some.mpr h]
  rfl

theorem decodeSight_unusable {f : Frame} (c : Cfg) (h : f.byte 0 % 8 < 1 ∨ 4 < f.byte 0 % 8) :
    decodeSight c f = none := by
  refine Option.map_eq_none_iff.mpr (Option.eq_none_iff_forall_ne_some.mpr fun p decoded => ?_)
  have range := sightPhaseCode_range p
  rw [sightPhaseOfCode_eq_some.mp decoded] at range
  omega

namespace Delivered

variable {s : State} {f : Frame} {rest : List Frame}

theorem sightTaken_elsewhere (h : Delivered s 3 f rest) (other : s.startup.role ≠ .inlet) :
    exec .sightTaken s = .next s.dequeue.chooseOffer := by
  show execSightTaken s = _
  unfold execSightTaken
  rw [h.headOf]
  exact if_neg other

theorem sightTaken_unusable (h : Delivered s 3 f rest) (inlet : s.startup.role = .inlet)
    (bad : f.byte 0 % 8 < 1 ∨ 4 < f.byte 0 % 8) :
    exec .sightTaken s = .next (s.dequeue.count .unknownKinds).chooseOffer := by
  show execSightTaken s = _
  unfold execSightTaken
  rw [h.headOf]
  dsimp only
  rw [if_pos inlet, decodeSight_unusable _ bad]
  rfl

theorem sightTaken_usable (h : Delivered s 3 f rest) (inlet : s.startup.role = .inlet) {p : SightPhase}
    (code : sightPhaseCode p = f.byte 0 % 8) :
    exec .sightTaken s = .next (s.dequeue.takeSight (sightOf s.cfg f p)).chooseOffer := by
  show execSightTaken s = _
  unfold execSightTaken
  rw [h.headOf]
  dsimp only
  rw [if_pos inlet, decodeSight_usable _ code]
  rfl

end Delivered

/-! ## One record refined (R75) -/

namespace PlumeRecord

/-- The table of R75, its columns by the frame's phase code. -/
theorem refine_eq (c : Cfg) (r : PlumeRecord) (m : Sight) : r.refine c m =
    if sightPhaseCode m.phase = 1 then r
    else
      { r with
        peak := max r.peak m.peak, species := ⟨r.species.pm || m.species.pm, r.species.no2 || m.species.no2⟩
        length := if (sightPhaseCode m.phase = 3 ∨ sightPhaseCode m.phase = 4) ∧ r.length = none then some m.length
          else r.length
        dt := if (sightPhaseCode m.phase = 3 ∨ sightPhaseCode m.phase = 4) ∧ r.length = none then
            some ((max 0 r.offset).toNat + c.timeline.tailMargin)
          else r.dt
        background := r.background || decide (sightPhaseCode m.phase = 4 ∧ r.length = none) } := by
  have ahead : (max 0 r.offset).toNat = r.offset.toNat := by omega
  unfold refine
  rw [ahead]
  cases hp : m.phase with
  | opened => rfl
  | update => simp [fold, Species.union, sightPhaseCode]
  | closed | forcedClose => cases hl : r.length <;> simp [fold, Species.union, sightPhaseCode, closeDt, hl]

theorem isDuplicate_iff (r : PlumeRecord) (m : Sight) : r.isDuplicate m = true ↔ sightPhaseCode m.phase = 1 ∨
    ((sightPhaseCode m.phase = 3 ∨ sightPhaseCode m.phase = 4) ∧ r.length.isSome = true) := by
  have opens : m.phase = .opened ↔ sightPhaseCode m.phase = 1 := by cases m.phase <;> decide
  rw [isDuplicate, Bool.or_eq_true, decide_eq_true_iff, Bool.and_eq_true, opens, closes_iff]

end PlumeRecord

theorem dropPassed_eq (rs : List PlumeRecord) : dropPassed rs =
    rs.filter fun x => decide ¬ (x.length.isSome = true ∧ x.dt = some 0) := by
  refine List.filter_congr fun x _ => ?_
  rw [PlumeRecord.passed, decide_not, Bool.decide_and, Bool.decide_eq_true]

namespace State

/-! ## A SIGHT by what it finds (R74) -/

/-- A position is unset, or the mask is empty: the SIGHT is ignored (R74). -/
def IgnoresSight (s : State) (m : Sight) : Prop :=
  s.cfg.timeline.geometry[s.startup.own] = none ∨ s.cfg.timeline.geometry[m.origin] = none ∨
    (m.species.pm = false ∧ m.species.no2 = false)

theorem takeSight_ignored {s : State} {m : Sight} (h : s.IgnoresSight m) : s.takeSight m = s.count .ignored := by
  unfold takeSight
  split
  · rfl
  · next o offset =>
    refine if_pos ?_
    unfold sightOffset at offset
    split at offset
    · next own org atOwn atOrigin =>
      rcases h with unset | unset | ⟨noPm, noNo2⟩
      · rw [unset] at atOwn; cases atOwn
      · rw [unset] at atOrigin; cases atOrigin
      · simp [Species.nonempty, noPm, noNo2]
    · cases offset

theorem sightOffset_of_set {s : State} {origin : Fin 8} {own org : Nat}
    (atOwn : s.cfg.timeline.geometry[s.startup.own] = some own)
    (atOrigin : s.cfg.timeline.geometry[origin] = some org) :
    s.sightOffset origin = some ((own : Int) - (org : Int)) := by
  unfold sightOffset
  rw [atOwn, atOrigin]

/-- A SIGHT that is not ignored is accepted: it has an offset and a kind (R74). -/
theorem accepts_of_not_ignores {s : State} {m : Sight} (h : ¬ s.IgnoresSight m) :
    ∃ o, s.sightOffset m.origin = some o ∧ Species.nonempty m.species = true := by
  obtain ⟨setOwn, others⟩ := not_or.mp h
  obtain ⟨setOrigin, kinds⟩ := not_or.mp others
  obtain ⟨own, atOwn⟩ := Option.ne_none_iff_exists'.mp setOwn
  obtain ⟨org, atOrigin⟩ := Option.ne_none_iff_exists'.mp setOrigin
  exact ⟨_, sightOffset_of_set atOwn atOrigin,
    Bool.eq_true_of_not_eq_false fun empty => kinds (Bool.or_eq_false_iff.mp empty)⟩

theorem takeSight_held {s : State} {m : Sight} {r : PlumeRecord} {o : Int} (offset : s.sightOffset m.origin = some o)
    (kinds : Species.nonempty m.species = true) (held : s.findRecord m.origin m.sequence = some r) :
    s.takeSight m = s.refineSight r m := by
  unfold takeSight
  rw [offset]
  dsimp only
  rw [if_neg (by simp [kinds]), held]

theorem takeSight_new {s : State} {m : Sight} {o : Int} (offset : s.sightOffset m.origin = some o)
    (kinds : Species.nonempty m.species = true) (free : s.findRecord m.origin m.sequence = none) :
    s.takeSight m = s.admitSight m o := by
  unfold takeSight
  rw [offset]
  dsimp only
  rw [if_neg (by simp [kinds]), free]

/-! ## A held record refined -/

/-- The records refined and the passed ones removed, with a duplicate counted: the event before the PLUME state is
judged. -/
def refined (s : State) (r : PlumeRecord) (m : Sight) : State :=
  let t := s.setRecords (dropPassed (s.timeline.records.map (PlumeRecord.refineKeyed s.cfg m)))
  if r.isDuplicate m then t.count .duplicates else t

theorem refineSight_eq (s : State) (r : PlumeRecord) (m : Sight) :
    s.refineSight r m = (s.refined r m).judgePlume false := rfl

theorem refined_only (s : State) (r : PlumeRecord) (m : Sight) : Only (.plumes :: noteParts) s (s.refined r m) :=
  Only.ite ((s.setRecords_only _).append (count_only _ _)) ((s.setRecords_only _).mono (by decide))

theorem refined_notes (s : State) (r : PlumeRecord) (m : Sight) :
    Notes [.counter .duplicates, .flag .counterRollover] s (s.refined r m) :=
  Notes.ite ((s.setRecords_notes _).seq (count_notes _ _) (by simp) (by simp)) ((s.setRecords_notes _).mono (by simp))

theorem refined_records (s : State) (r : PlumeRecord) (m : Sight) : (s.refined r m).timeline.records =
    dropPassed (s.timeline.records.map (PlumeRecord.refineKeyed s.cfg m)) := by
  unfold refined
  dsimp only
  split
  · rw [timeline_count]
    rfl
  · rfl

theorem refined_duplicates (s : State) (r : PlumeRecord) (m : Sight) : (s.refined r m).cell .duplicates =
    if r.isDuplicate m = true then (s.cell .duplicates).add 1 else s.cell .duplicates := by
  unfold refined
  dsimp only
  split
  · exact (cell_count _ _ _).trans (if_pos rfl)
  · rfl

theorem refineSight_records (s : State) (r : PlumeRecord) (m : Sight) : (s.refineSight r m).timeline.records =
    dropPassed (s.timeline.records.map (PlumeRecord.refineKeyed s.cfg m)) :=
  (judgePlume_records _ _).trans (s.refined_records r m)

theorem refineSight_duplicates (s : State) (r : PlumeRecord) (m : Sight) : (s.refineSight r m).cell .duplicates =
    if r.isDuplicate m = true then (s.cell .duplicates).add 1 else s.cell .duplicates :=
  (judgePlume_notes _ _ (.counter .duplicates) (by simp)).trans (s.refined_duplicates r m)

end State

/-- Settles O27: the role, the phase, and what the SIGHT finds, each in its turn. -/
theorem sightRefinesAHeldRecord : Obligations.SightRefinesAHeldRecord := by
  intro s f rest delivered phase closes pm no2 ignored refined
  by_cases inlet : s.startup.role = .inlet
  swap
  · refine ⟨_, delivered.sightTaken_elsewhere inlet, ?_, fun _ => Changes.ends s.dequeue_only s.dequeue_notes,
      (absurd · inlet), (absurd · inlet), fun _ => (absurd · inlet)⟩
    exact (State.queue_chooseOffer _).trans delivered.dequeued
  by_cases usable : 1 ≤ phase ∧ phase ≤ 4
  swap
  · have bad : phase < 1 ∨ 4 < phase := by omega
    refine ⟨_, delivered.sightTaken_unusable inlet bad, ?_, fun other => absurd inlet other,
      fun _ _ => s.unknownKind_counted, fun _ lo hi => absurd ⟨lo, hi⟩ usable,
      fun _ _ lo hi => absurd ⟨lo, hi⟩ usable⟩
    exact (State.queue_chooseOffer _).trans ((State.count_only _ _ .queue (by decide)).trans delivered.dequeued)
  obtain ⟨p, code⟩ := exists_sightPhaseCode usable.1 usable.2
  let d := s.dequeue
  let m := sightOf s.cfg f p
  refine ⟨(d.takeSight m).chooseOffer, delivered.sightTaken_usable inlet code, ?_, fun other => absurd inlet other,
    fun _ bad => by omega, fun _ _ _ unset => ?_, fun r _ _ _ accepted held => ?_⟩
  · exact (State.queue_chooseOffer _).trans ((State.takeSight_only _ _ .queue (by decide)).trans delivered.dequeued)
  · rw [State.takeSight_ignored (s := d) (m := m) unset]
    refine ⟨?_, Changes.ends (State.count_only _ _).taken (State.count_notes _ _).taken⟩
    exact (State.cell_chooseOffer _ _).trans ((State.cell_count _ _ _).trans (if_pos rfl))
  · have keyed : PlumeRecord.refineKeyed s.cfg m =
        fun x => if x.origin = f.station ∧ x.sequence = f.byte 1 then refined x else x := by
      funext x
      have refines : x.refine s.cfg m = refined x := by
        rw [PlumeRecord.refine_eq, show sightPhaseCode m.phase = phase from code]
        rfl
      rw [PlumeRecord.refineKeyed, refines]
      exact ite_congr (propext PlumeRecord.hasKey_iff) (fun _ => rfl) fun _ => rfl
    have duplicate : r.isDuplicate m = true ↔ phase = 1 ∨ (closes ∧ r.length.isSome) := by
      rw [PlumeRecord.isDuplicate_iff, show sightPhaseCode m.phase = phase from code]
    obtain ⟨o, offset, kinds⟩ := State.accepts_of_not_ignores (s := d) (m := m) accepted
    have cell := (State.cell_chooseOffer _ _).trans (d.refineSight_duplicates r m)
    rw [show d.takeSight m = d.refineSight r m from State.takeSight_held offset kinds held]
    refine ⟨?_, fun counted => ?_, fun single => ?_, ?_, ?_⟩
    · rw [State.timeline_chooseOffer, State.refineSight_records, ← dropPassed_eq, ← keyed]
      rfl
    · exact cell.trans (if_pos (duplicate.mpr counted))
    · exact cell.trans (if_neg fun counted => single (duplicate.mp counted))
    · exact PlumeJudged.ends false (d.refined_only r m).taken (d.refined_notes r m).taken
    · exact Changes.judged false (d.refined_only r m).taken (d.refined_notes r m).taken (by simp) (by simp)

end Sys2Proof.Machine
end

section
/-! PROOFS. A SIGHT whose key is not held (O28): the record created, room made for it, or the SIGHT dropped. -/

namespace Sys2Proof.Machine

open Sys2Proof

/-! ## The candidate for eviction (R77) -/

theorem dropCandidate_eq_none {l : List PlumeRecord} (h : dropCandidate l = none) :
    ∀ r ∈ l, r.phase ≠ .approaching := by
  induction l with
  | nil => nofun
  | cons x xs ih =>
    unfold dropCandidate at h
    split at h
    · next rest =>
      split at h
      · cases h
      · next far => exact List.forall_mem_cons.mpr ⟨far, ih rest⟩
    · split at h <;> cases h

theorem dropCandidate_approaching {l : List PlumeRecord} {v : PlumeRecord} (h : dropCandidate l = some v) :
    v.phase = .approaching := by
  induction l generalizing v with
  | nil => cases h
  | cons x xs ih =>
    unfold dropCandidate at h
    split at h
    · split at h
      · next near => cases h; exact near
      · cases h
    · next y rest =>
      split at h
      · next better => cases h; exact better.1
      · cases h; exact ih rest

/-- No APPROACHING record goes before the candidate. -/
theorem dropCandidate_least {l : List PlumeRecord} {v : PlumeRecord} (h : dropCandidate l = some v) :
    ∀ w ∈ l, w.phase = .approaching → v.peak < w.peak ∨ (v.peak = w.peak ∧ w.created ≤ v.created) := by
  induction l generalizing v with
  | nil => cases h
  | cons x xs ih =>
    unfold dropCandidate at h
    split at h
    · next rest =>
      split at h
      · cases h
        exact List.forall_mem_cons.mpr ⟨fun _ => .inr ⟨rfl, le_rfl⟩,
          fun w hw near => absurd near (dropCandidate_eq_none rest w hw)⟩
      · cases h
    · next y rest =>
      split at h
      · next better =>
        cases h
        have before := of_decide_eq_true better.2
        refine List.forall_mem_cons.mpr ⟨fun _ => .inr ⟨rfl, le_rfl⟩, fun w hw near => ?_⟩
        have := ih rest w hw near
        omega
      · next worse =>
        cases h
        refine List.forall_mem_cons.mpr ⟨fun near => ?_, ih rest⟩
        have after : ¬ (x.peak < v.peak ∨ (x.peak = v.peak ∧ v.created < x.created)) :=
          fun before => worse ⟨near, decide_eq_true before⟩
        omega

/-- The weakest APPROACHING record, the newest of those, is the candidate. -/
theorem dropCandidate_unique {l : List PlumeRecord} {v : PlumeRecord} (hv : v ∈ l) (near : v.phase = .approaching)
    (first : ∀ w ∈ l, w.phase = .approaching →
      w = v ∨ v.peak < w.peak ∨ (v.peak = w.peak ∧ w.created < v.created)) : dropCandidate l = some v := by
  cases found : dropCandidate l with
  | none => exact absurd near (dropCandidate_eq_none found v hv)
  | some u =>
    have least := dropCandidate_least found v hv near
    rcases first u (dropCandidate_mem found) (dropCandidate_approaching found) with same | behind
    · rw [same]
    · omega

theorem PlumeRecord.holds_eq (r : PlumeRecord) : r.holds = decide (r.phase ≠ .approaching) := by
  unfold holds
  cases r.phase <;> rfl

namespace State

/-! ## The new record (R76) -/

/-- The new record, its close fields by the frame's phase code. -/
theorem newRecord_eq (s : State) (m : Sight) (o : Int) : s.newRecord m o =
    let df := (max 0 o).toNat - m.dsf
    { origin := m.origin, sequence := m.sequence, species := m.species, peak := m.peak, offset := o, df := df
      length := if sightPhaseCode m.phase = 3 ∨ sightPhaseCode m.phase = 4 then some m.length else none
      dt := if sightPhaseCode m.phase = 3 ∨ sightPhaseCode m.phase = 4 then
          some ((max 0 o).toNat + s.cfg.timeline.tailMargin)
        else none
      background := decide (sightPhaseCode m.phase = 4)
      phase := if df = 0 then .engulfed
        else if s.tracker.state ≠ .tracking ∨ m.travelLost = true ∨ df ≤ s.timeline.lead then .armed
        else .approaching
      ageMs := 0, engulfMs := if df = 0 then some 0 else none, created := s.timeline.nextCreated } := by
  have ahead : (max 0 o).toNat = o.toNat := by omega
  have forced : m.phase = .forcedClose ↔ sightPhaseCode m.phase = 4 := by cases m.phase <;> decide
  unfold newRecord closeDt
  rw [ahead]
  simp only [closes_iff, forced, ite_or]

/-- What the new record reads of the state. -/
theorem newRecord_congr {s t : State} (m : Sight) (o : Int) (cfg : t.cfg = s.cfg) (tracker : t.tracker = s.tracker)
    (lead : t.timeline.lead = s.timeline.lead) (next : t.timeline.nextCreated = s.timeline.nextCreated) :
    t.newRecord m o = s.newRecord m o := by
  unfold newRecord
  rw [cfg, tracker, lead, next]

/-! ## A record created, and room made for it (R76, R77) -/

/-- The record in its place and counted, passed records removed: the event before the PLUME state is judged. -/
def withRecord (s : State) (r : PlumeRecord) : State :=
  State.count
    { s with timeline := { s.timeline with
      records := dropPassed (insertRecord r s.timeline.records), nextCreated := s.timeline.nextCreated + 1 } }
    .created

theorem createRecord_eq (s : State) (m : Sight) (o : Int) :
    s.createRecord m o = (s.withRecord (s.newRecord m o)).judgePlume (s.newRecord m o).holds := rfl

theorem withRecord_only (s : State) (r : PlumeRecord) : Only (.plumes :: noteParts) s (s.withRecord r) :=
  (s.setPlumes_only _ _).append (count_only _ _)

theorem withRecord_notes (s : State) (r : PlumeRecord) :
    Notes [.counter .created, .flag .counterRollover] s (s.withRecord r) :=
  (s.setPlumes_notes _ _).seq (count_notes _ _) (by simp) (by simp)

theorem createRecord_created (s : State) (m : Sight) (o : Int) :
    (s.createRecord m o).cell .created = (s.cell .created).add 1 :=
  (judgePlume_notes _ _ (.counter .created) (by simp)).trans ((cell_count _ _ _).trans (if_pos rfl))

theorem createRecord_records (s : State) (m : Sight) (o : Int) : ((s.createRecord m o).timeline.records).Perm
    (dropPassed (s.newRecord m o :: s.timeline.records)) := by
  rw [createRecord_eq, judgePlume_records, withRecord, timeline_count]
  exact (insertRecord_perm _ _).filter _

/-- The record of `v`'s key removed and counted as evicted (R77). -/
def evict (s : State) (v : PlumeRecord) : State :=
  (s.setRecords (s.timeline.records.filter fun x => !x.hasKey v.origin v.sequence)).count .evicted

theorem evict_only (s : State) (v : PlumeRecord) : Only (.plumes :: noteParts) s (s.evict v) :=
  (s.setRecords_only _).append (count_only _ _)

theorem evict_notes (s : State) (v : PlumeRecord) :
    Notes [.counter .evicted, .flag .counterRollover] s (s.evict v) :=
  (s.setRecords_notes _).seq (count_notes _ _) (by simp) (by simp)

theorem evict_evicted (s : State) (v : PlumeRecord) : (s.evict v).cell .evicted = (s.cell .evicted).add 1 :=
  (cell_count _ _ _).trans (if_pos rfl)

theorem evict_timeline (s : State) (v : PlumeRecord) : (s.evict v).timeline =
    { s.timeline with records := s.timeline.records.filter fun x => !x.hasKey v.origin v.sequence } :=
  timeline_count _ _

theorem newRecord_evict (s : State) (v : PlumeRecord) (m : Sight) (o : Int) :
    (s.evict v).newRecord m o = s.newRecord m o := by
  refine newRecord_congr m o (s.evict_only v .cfg (by decide)) (s.evict_only v .tracker (by decide)) ?_ ?_
  · rw [evict_timeline]
  · rw [evict_timeline]

/-! ## The capacity check (R77) -/

theorem dropSight_dropped (s : State) : s.dropSight.cell .dropped = (s.cell .dropped).add 1 :=
  (cell_count _ _ _).trans (if_pos rfl)

theorem dropSight_overflow (s : State) : s.dropSight.flag .timelineOverflow = true :=
  (flag_writeFlag _ _ _ _).trans (if_pos rfl)

theorem dropSight_frame (s : State) : Only noteParts s s.dropSight :=
  (s.count_only _).seq (writeFlag_only _ _ _) (List.Subset.refl _) (by decide)

theorem admitSight_room {s : State} (h : s.timeline.records.length < 12) (m : Sight) (o : Int) :
    s.admitSight m o = s.createRecord m o := if_pos h

theorem admitSight_evicts {s : State} {v : PlumeRecord} {m : Sight} (full : 12 ≤ s.timeline.records.length)
    (candidate : dropCandidate s.timeline.records = some v) (weaker : v.peak < m.peak) (o : Int) :
    s.admitSight m o = (s.evict v).createRecord m o := by
  unfold admitSight
  rw [if_neg (show ¬ s.timeline.records.length < timelineCapacity from Nat.not_lt.mpr full), candidate]
  exact if_pos weaker

theorem admitSight_drops {s : State} {m : Sight} (full : 12 ≤ s.timeline.records.length)
    (stronger : ∀ w ∈ s.timeline.records, w.phase = .approaching → m.peak ≤ w.peak) (o : Int) :
    s.admitSight m o = s.dropSight := by
  unfold admitSight
  rw [if_neg (show ¬ s.timeline.records.length < timelineCapacity from Nat.not_lt.mpr full)]
  split
  · rfl
  · next v candidate =>
    exact if_neg (Nat.not_lt.mpr (stronger v (dropCandidate_mem candidate) (dropCandidate_approaching candidate)))

/-- What a SIGHT of a new key can touch: the lead is not among it. -/
theorem admitSight_frame (s : State) (m : Sight) (o : Int) :
    Only (.plumes :: .plumeHold :: listParts) s (s.admitSight m o) := by
  have creates (u : State) : Only (.plumes :: .plumeHold :: listParts) u (u.createRecord m o) :=
    (u.withRecord_only _).seq (judgePlume_only _ _) (by decide) (by decide)
  have drops : Only (.plumes :: .plumeHold :: listParts) s s.dropSight := s.dropSight_frame.mono (by decide)
  refine Only.ite (creates s) ?_
  split
  · exact drops
  · next v _ => exact Only.ite (((s.evict_only v).mono (by decide)).trans (creates _)) drops

end State

/-- The record `new` was created in the event from `s` to `t`, where `u` had made room for it (R76, R84). -/
structure RecordCreated (new : PlumeRecord) (s u t : State) : Prop where
  created : t.cell .created = (s.cell .created).add 1
  dropped : t.cell .dropped = s.cell .dropped
  evicted : t.cell .evicted = u.cell .evicted
  records : t.timeline.records.Perm (dropPassed (new :: u.timeline.records))
  judged : PlumeJudged [.queue, .alert] [.counter .created, .counter .evicted, .flag .counterRollover]
    (decide (new.phase ≠ .approaching)) s t

theorem RecordCreated.of {s u : State} {m : Sight} {o : Int} {new : PlumeRecord} (made : u.newRecord m o = new)
    (only : Only (.plumes :: .queue :: noteParts) s u)
    (notes : Notes [.counter .evicted, .flag .counterRollover] s u) :
    RecordCreated new s u (u.createRecord m o).chooseOffer := by
  have creates := u.createRecord_notes m o
  refine ⟨?_, ?_, ?_, ?_, ?_⟩
  · refine (State.cell_chooseOffer _ _).trans ((u.createRecord_created m o).trans ?_)
    exact congrArg (·.add 1) (notes (.counter .created) (by simp))
  · exact (State.cell_chooseOffer _ _).trans ((creates (.counter .dropped) (by simp)).trans
      (notes (.counter .dropped) (by simp)))
  · exact (State.cell_chooseOffer _ _).trans (creates (.counter .evicted) (by simp))
  · rw [State.timeline_chooseOffer, ← made]
    exact u.createRecord_records m o
  · rw [← PlumeRecord.holds_eq, State.createRecord_eq, made]
    exact PlumeJudged.ends _ (only.append (u.withRecord_only new))
      (notes.seq (u.withRecord_notes new) (by simp) (by simp))

/-- Settles O28: the SIGHT is admitted by R77, and the record R76 gives is created where there is room for it. -/
theorem sightCreatesARecord : Obligations.SightCreatesARecord := by
  intro s f rest own org delivered inlet phase closes pm no2 o df peak new held judged lo hi atOwn atOrigin kinds free
  obtain ⟨p, code⟩ := exists_sightPhaseCode lo hi
  let d := s.dequeue
  let m := sightOf s.cfg f p
  have isNew : d.newRecord m o = new := by
    rw [State.newRecord_eq, show sightPhaseCode m.phase = phase from code]
    rfl
  have admitted : d.takeSight m = d.admitSight m o := State.takeSight_new (s := d) (m := m)
    (State.sightOffset_of_set atOwn atOrigin) ((Bool.or_eq_true _ _).mpr kinds) free
  refine ⟨(d.takeSight m).chooseOffer, delivered.sightTaken_usable inlet code, ?_, fun room => ?_,
    fun v hv full near first weaker => ?_, fun full stronger => ?_, fun ordered => ?_, ?_⟩
  · exact (State.queue_chooseOffer _).trans ((State.takeSight_only _ _ .queue (by decide)).trans delivered.dequeued)
  · have creates : d.takeSight m = d.createRecord m o := admitted.trans (State.admitSight_room (s := d) room m o)
    have done : RecordCreated new s d _ :=
      RecordCreated.of isNew (s.dequeue_only.mono (by decide)) (s.dequeue_notes.mono (by simp))
    rw [← creates] at done
    exact ⟨done.created, done.evicted, done.dropped, done.records, done.judged⟩
  · have candidate := dropCandidate_unique hv near first
    have evicts : d.takeSight m = (d.evict v).createRecord m o :=
      admitted.trans (State.admitSight_evicts (s := d) (m := m) full candidate weaker o)
    have done : RecordCreated new s (d.evict v) _ := RecordCreated.of ((d.newRecord_evict v m o).trans isNew)
      (s.dequeue_only.seq (d.evict_only v) (by decide) (by decide))
      (s.dequeue_notes.seq (d.evict_notes v) (by simp) (by simp))
    rw [← evicts] at done
    have left := done.records
    rw [State.evict_timeline, PlumeRecord.not_hasKey] at left
    exact ⟨done.evicted.trans (d.evict_evicted v), done.created, done.dropped, done.judged, left⟩
  · have drops : d.takeSight m = d.dropSight :=
      admitted.trans (State.admitSight_drops (s := d) (m := m) full stronger o)
    rw [drops]
    exact ⟨(State.cell_chooseOffer _ _).trans d.dropSight_dropped,
      (State.flag_chooseOffer _ _).trans d.dropSight_overflow,
      Changes.ends d.dropSight_frame.taken d.dropSight_notes.taken⟩
  · unfold RecordsOrdered
    rw [State.timeline_chooseOffer]
    exact (TimelineKept.takeSight d m).ordered ordered
  · rw [admitted]
    exact Changes.ends (d.admitSight_frame m o).taken (d.admitSight_notes m o).taken

end Sys2Proof.Machine
end

section
/-! PROOFS. Every step keeps the safe position (O59). -/

namespace Sys2Proof.Machine

open Sys2Proof

/-! ## The safe-source set -/

/-- The members of a set seen one by one. -/
theorem SafeSet.nonempty_iff {q : SafeSet} : q.nonempty = true ↔
    q.force = true ∨ q.conflict = true ∨ q.rule = true ∨ ∃ n : Fin 8, q.remote[n].isSome = true := by
  have remote : q.remote.toList.any (·.isSome) = true ↔ ∃ n : Fin 8, q.remote[n].isSome = true := by
    rw [List.any_eq_true]
    constructor
    · rintro ⟨m, member, some⟩
      obtain ⟨i, bound, rfl⟩ := Vector.mem_iff_getElem.mp (Vector.mem_toList_iff.mp member)
      exact ⟨⟨i, bound⟩, some⟩
    · rintro ⟨n, some⟩
      exact ⟨q.remote[n], Vector.mem_toList_iff.mpr (Vector.getElem_mem n.isLt), some⟩
  simp only [SafeSet.nonempty, Bool.or_eq_true, remote, or_assoc]

theorem SafeSet.localOnly_nonempty {q : SafeSet} (h : q.localOnly.nonempty = true) : q.nonempty = true := by
  rcases SafeSet.nonempty_iff.mp h with force | conflict | rule | ⟨n, remote⟩
  · exact SafeSet.nonempty_iff.mpr (.inl force)
  · exact SafeSet.nonempty_iff.mpr (.inr (.inl conflict))
  · exact SafeSet.nonempty_iff.mpr (.inr (.inr (.inl rule)))
  · rw [show q.localOnly.remote[n] = none from tabulate_get _ n] at remote
    cases remote

/-- A hold that runs down leaves its member in the set. -/
theorem SafeSet.tick_nonempty (q : SafeSet) : q.tick.nonempty = q.nonempty := by
  have remote (n : Fin 8) : q.tick.remote[n].isSome = q.remote[n].isSome := by
    rw [show q.tick.remote[n] = q.remote[n].map SafeMember.tick from mapVector_get _ q.remote n, Option.isSome_map]
  rw [Bool.eq_iff_iff, SafeSet.nonempty_iff, SafeSet.nonempty_iff]
  simp only [remote]
  rfl

/-! ## Updates that leave the safe position -/

theorem Channel.step_target (cfg : RampCfg) (c : Channel) : (c.step cfg).target = c.target := by
  unfold Channel.step
  dsimp only
  split <;> rfl

namespace State

theorem reselect_of_same {s : State} (h : s.selectRegime = s.regime) : s.reselect = s := if_pos (.inr h)

/-- With a member in the set the regime of R103 is SAFE. -/
theorem selectRegime_of_nonempty {s : State} (h : s.safe.nonempty = true) : s.selectRegime = .safe := by
  unfold selectRegime
  rw [h]
  rfl

/-- No computation is made in SAFE (R122). -/
theorem computeMix_of_safe {s : State} (h : s.regime = .safe) (afresh : Bool) : s.computeMix afresh = s := by
  unfold computeMix
  rw [h]
  exact ite_self s

theorem setSafe_of_idle {s : State} (h : s.listWorks = false) (q : SafeSet) : s.setSafe q = s := if_pos h

end State

namespace SafePosition

/-- An update that brings no member into an empty set, and leaves the station, the role and the configuration, has to
leave the position applied. -/
theorem of_smaller {ps : List Part} {s t : State} (h : SafePosition s) (only : Only ps s t)
    (set : t.safe.nonempty = true → s.safe.nonempty = true)
    (applied : s.startup.role = .inlet → s.safe.nonempty = true → t.regime = .safe ∧
      t.ramps.damper.target = s.cfg.mix.safeDamper ∧ t.ramps.blower.target = s.cfg.mix.safeBlower)
    (station : Part.station ∉ ps := by decide) (role : Part.role ∉ ps := by decide)
    (cfg : Part.cfg ∉ ps := by decide) : SafePosition t := by
  have station : t.startup.station = s.startup.station := only .station station
  have role : t.startup.role = s.startup.role := only .role role
  have cfg : t.cfg = s.cfg := only .cfg cfg
  refine ⟨fun inlet some => ?_, fun loading => Bool.eq_false_iff.mpr fun some => ?_⟩
  · rw [cfg]
    exact applied (role ▸ inlet) (set some)
  · exact absurd ((h.loading (station ▸ loading)).symm.trans (set some)) (by decide)

/-- The same with the set left as it is. -/
theorem of_applied {ps : List Part} {s t : State} (h : SafePosition s) (only : Only ps s t)
    (applied : s.startup.role = .inlet → s.safe.nonempty = true → t.regime = .safe ∧
      t.ramps.damper.target = s.cfg.mix.safeDamper ∧ t.ramps.blower.target = s.cfg.mix.safeBlower)
    (safe : Part.safeSet ∉ ps := by decide) (station : Part.station ∉ ps := by decide)
    (role : Part.role ∉ ps := by decide) (cfg : Part.cfg ∉ ps := by decide) : SafePosition t :=
  have same : t.safe = s.safe := only .safeSet safe
  h.of_smaller only (fun some => same ▸ some) applied station role cfg

/-- An update of other parts. -/
theorem of_only {ps : List Part} {s t : State} (h : SafePosition s) (only : Only ps s t)
    (safe : Part.safeSet ∉ ps := by decide) (station : Part.station ∉ ps := by decide)
    (role : Part.role ∉ ps := by decide) (cfg : Part.cfg ∉ ps := by decide) (regime : Part.regime ∉ ps := by decide)
    (damper : Part.damper ∉ ps := by decide) (blower : Part.blower ∉ ps := by decide) : SafePosition t := by
  have regime : t.regime = s.regime := only .regime regime
  have damper : t.ramps.damper = s.ramps.damper := only .damper damper
  have blower : t.ramps.blower = s.ramps.blower := only .blower blower
  refine h.of_applied only ?_ safe station role cfg
  rw [regime, damper, blower]
  exact h.applied

/-- With an empty set there is nothing to apply. -/
theorem of_empty {s : State} (h : s.safe.nonempty = false) : SafePosition s :=
  ⟨fun _ some => absurd (h.symm.trans some) (by decide), fun _ => h⟩

/-- An INLET with a member in its set is not in LOADING, so its list works (R110). -/
theorem listWorks {s : State} (h : SafePosition s) (inlet : s.startup.role = .inlet) (some : s.safe.nonempty = true) :
    s.listWorks = true :=
  s.listWorks_iff.mpr ⟨inlet, fun loading => absurd ((h.loading loading).symm.trans some) (by decide)⟩

variable {s : State}

/-! ## The regime and the set -/

theorem reselect (h : SafePosition s) : SafePosition s.reselect := by
  refine h.of_applied s.reselect_only fun inlet some => ?_
  have safe : s.selectRegime = s.regime := (State.selectRegime_of_nonempty some).trans (h.applied inlet some).1.symm
  rw [State.reselect_of_same safe]
  exact h.applied inlet some

theorem rederive (h : SafePosition s) : SafePosition s.rederive := by
  refine h.of_applied s.rederive_only fun inlet some => ?_
  obtain ⟨selected, handed⟩ := s.rederive_selected (h.listWorks inlet some)
  have set : s.rederive.safe = s.safe := s.rederive_only .safeSet (by decide)
  have cfg : s.rederive.cfg = s.cfg := s.rederive_only .cfg (by decide)
  have safe : s.rederive.regime = .safe := selected.trans (if_pos (.inl (set ▸ some)))
  exact ⟨safe, cfg ▸ handed.safe safe⟩

/-- The set takes a new value: one that is entered applies the position, one that stays non-empty leaves it. -/
theorem setSafe (h : SafePosition s) (q : SafeSet) : SafePosition (s.setSafe q) := by
  cases works : s.listWorks with
  | false => rwa [State.setSafe_of_idle works]
  | true =>
    obtain ⟨inlet, station⟩ := s.listWorks_iff.mp works
    have handed := s.setSafe_handed q inlet
    have set : (s.setSafe q).safe = q := handed.set inlet station
    have cfg : (s.setSafe q).cfg = s.cfg := s.setSafe_only q .cfg (by decide)
    refine ⟨fun _ some => ?_,
      fun loading => absurd ((s.setSafe_only q .station (by decide)).symm.trans loading) station⟩
    rw [set] at some
    rw [cfg]
    cases before : s.safe.nonempty with
    | false => exact (handed.entered inlet station before some).2
    | true =>
      obtain ⟨-, regime, ramps, -⟩ := handed.inside inlet (before.trans some.symm)
      rw [regime, ramps]
      exact h.applied inlet before

theorem dropRemote (h : SafePosition s) : SafePosition s.dropRemote := by
  have set : s.dropRemote.safe = s.safe.localOnly := by
    unfold State.dropRemote
    dsimp only
    split <;> rfl
  have ramps : s.dropRemote.ramps = s.ramps := State.ramps_ext (s.dropRemote_only .damper (by decide))
    (s.dropRemote_only .blower (by decide)) (s.dropRemote_only .settle (by decide))
  refine h.of_smaller s.dropRemote_only (fun some => SafeSet.localOnly_nonempty (set ▸ some)) fun inlet some => ?_
  rw [ramps]
  obtain ⟨regime, targets⟩ := h.applied inlet some
  exact ⟨(s.dropRemote_only .regime (by decide)).trans regime, targets⟩

theorem computeMix (h : SafePosition s) (afresh : Bool) : SafePosition (s.computeMix afresh) := by
  refine h.of_applied (s.computeMix_only afresh) fun inlet some => ?_
  rw [State.computeMix_of_safe (h.applied inlet some).1]
  exact h.applied inlet some

/-! ## Channels, start-up and time -/

/-- The safe codes as ordinary targets, at the entry to JOINING (R139). -/
theorem safeCodes (h : SafePosition s) :
    SafePosition (({ s with regime := .safe }).takeTargets s.cfg.mix.safeDamper s.cfg.mix.safeBlower) := by
  let u : State := { s with regime := .safe }
  have only := u.takeTargets_only s.cfg.mix.safeDamper s.cfg.mix.safeBlower
  refine h.of_applied ((s.setRegime_only .safe).append only) fun inlet _ => ?_
  obtain ⟨damper, blower⟩ := u.takeTargets_targets s.cfg.mix.safeDamper s.cfg.mix.safeBlower inlet
  exact ⟨only .regime (by decide), (congrArg Channel.target damper).trans (Channel.take_target _ _ _),
    (congrArg Channel.target blower).trans (Channel.take_target _ _ _)⟩

/-- A step moves a channel's output and leaves its target. -/
theorem steps (h : SafePosition s) (n : RampName) :
    SafePosition (s.putChannel n ((s.ramps.channel n).step (rampCfg s.cfg n))) := by
  refine h.of_applied (s.putChannel_only n _) fun inlet some => ?_
  obtain ⟨regime, damper, blower⟩ := h.applied inlet some
  refine ⟨(s.putChannel_only n _ .regime (by decide)).trans regime, ?_⟩
  cases n with
  | damper =>
    obtain ⟨put, kept⟩ := s.putChannel_damper (s.ramps.damper.step s.cfg.damper)
    exact ⟨(congrArg Channel.target put).trans ((Channel.step_target _ _).trans damper),
      (congrArg Channel.target kept).trans blower⟩
  | blower => exact ⟨damper, (Channel.step_target s.cfg.blower s.ramps.blower).trans blower⟩

theorem coldReset (s : State) : SafePosition s.coldReset := of_empty resetSafeSet_nonempty

/-- The set of a station in LOADING is empty, and its role and configuration may change. -/
theorem joins (h : SafePosition s) (l : Loaded) (loading : s.startup.station = .loading) :
    SafePosition (s.takeConfiguration l).startBlocks := of_empty (h.loading loading)

theorem linkReset (h : SafePosition s) (f : Frame) :
    SafePosition (((s.linkCleared f).clearFlag .linkPassive).clearFlag .linkWithdrawn) :=
  ((h.of_only (s.linkCleared_only f)).of_only (State.writeFlag_only _ _ _)).of_only (State.writeFlag_only _ _ _)

theorem tick (h : SafePosition s) : SafePosition s.tick := by
  have set : s.tick.safe.nonempty = s.safe.nonempty := s.safe.tick_nonempty
  refine ⟨?_, ?_⟩
  · rw [set]
    exact h.applied
  · rw [set]
    exact h.loading

end SafePosition

/-! ## The step -/

theorem Act.keeps_safePosition {s t : State} (a : Act s t) (h : SafePosition s) : SafePosition t := by
  induction a with
  | refl => exact h
  | trans _ _ first second => exact second (first h)
  | quiet only => exact h.of_only only
  | flag s f b => exact h.of_only (s.writeFlag_only f b)
  | post s box f => exact h.of_only (s.post_only box f)
  | answer s held => exact h.of_only (s.hold_only .answer held)
  | list | peers => exact ⟨h.applied, h.loading⟩
  | reselect => exact h.reselect
  | rederive => exact h.rederive
  | setSafe s q => exact h.setSafe q
  | dropRemote => exact h.dropRemote
  | computeMix s afresh => exact h.computeMix afresh
  | rule s n r => exact (h.of_only (s.setRule_only n r)).of_only (State.writeFlag_only _ _ _)
  | tally s n r => exact h.of_only (s.setRule_only n r)

theorem Does.keeps_safePosition {s t : State} (d : Does s t) (h : SafePosition s) : SafePosition t := by
  induction d with
  | act a => exact a.keeps_safePosition h
  | trans _ _ first second => exact second (first h)
  | choose s => exact h.of_only s.chooseOffer_only
  | powerOn s => exact .coldReset s
  | fullReset s => exact .coldReset s
  | joins s l loading => exact h.joins l loading
  | safeCodes => exact h.safeCodes
  | steps s n => exact h.steps n
  | scoreSent s => exact h.of_only s.scoreSent_only
  | scoreFailed s => exact h.of_only s.scoreFailed_only
  | linkReset s f => exact h.linkReset f
  | runs | conflict => exact ⟨h.applied, nofun⟩
  | dequeue | pins | removes | keeps | abandons | score | withdrawalEnds | queue | mark => exact ⟨h.applied, h.loading⟩

/-- Settles O59: whatever a step does (`Does`) leaves an applied position applied, and SAFE applies it where the set is
entered. -/
theorem everyStepKeepsTheSafePosition : Obligations.EveryStepKeepsTheSafePosition := by
  intro s t h run
  rcases step_cases run with rfl | ⟨c, rest, run⟩
  · exact h.tick
  · exact (exec_does run).keeps_safePosition ⟨h.applied, h.loading⟩

end Sys2Proof.Machine
end

section
/-! PROOFS. The repeat timers of the emitters and the timers of the door scrub (O35). -/

namespace Sys2Proof.Machine

open Sys2Proof

/-! ## DEMAND and SAFE content (R105, R106, R174) -/

theorem byte1_value (n : Nat) : (BitVec.ofNat 8 n).toNat = n % 256 := BitVec.toNat_ofNat n 8

theorem demandFrame_fields (s : State) (source : Fin 16) (r : DemandRegime) (level hold : Nat) :
    (demandFrame s source r level hold).kind = 5 ∧ (demandFrame s source r level hold).index = source ∧
      (demandFrame s source r level hold).station = s.startup.own ∧
      (demandFrame s source r level hold).data.length = 3 ∧
      (demandFrame s source r level hold).byte 0 = demandRegimeCode r ∧
      (demandFrame s source r level hold).byte 1 = level % 256 ∧
      (demandFrame s source r level hold).byte 2 = hold % 256 := by
  obtain ⟨kind, index, station⟩ := State.ownFrame_head s 5 source.val
    (byte1 (demandRegimeCode r) ++ byte1 level ++ byte1 hold) (by decide) source.isLt
  exact ⟨kind, Fin.ext index, station, rfl, by cases r <;> rfl, byte1_value level, byte1_value hold⟩

theorem reasonBits (force rule : Bool) : (BitVec.ofNat 8 (bitsValue [force, rule])).toNat.testBit 0 = force ∧
    (BitVec.ofNat 8 (bitsValue [force, rule])).toNat.testBit 1 = rule := by
  revert force rule
  decide

theorem safeFrame_fields (s : State) (force rule : Bool) (hold : Nat) :
    (safeFrame s force rule hold).kind = 1 ∧ (safeFrame s force rule hold).station = s.startup.own ∧
      (safeFrame s force rule hold).data.length = 2 ∧ ((safeFrame s force rule hold).byte 0).testBit 0 = force ∧
      ((safeFrame s force rule hold).byte 0).testBit 1 = rule ∧
      (safeFrame s force rule hold).byte 1 = hold % 256 := by
  obtain ⟨kind, -, station⟩ := State.ownFrame_head s 1 0 (byte1 (bitsValue [force, rule]) ++ byte1 hold)
    (by decide) (by decide)
  obtain ⟨forceBit, ruleBit⟩ := reasonBits force rule
  exact ⟨kind, station, rfl, forceBit, ruleBit, byte1_value hold⟩

namespace State

theorem emitters_chooseOffer (s : State) : s.chooseOffer.emitters = s.emitters :=
  s.chooseOffer_only .emitters (by decide)

theorem scrub_chooseOffer (s : State) : s.chooseOffer.scrub = s.scrub := s.chooseOffer_only .scrub (by decide)

theorem frames_chooseOffer (s : State) (b : Box) : s.chooseOffer.frames b = s.frames b :=
  frames_same (s.chooseOffer_notes (.box b) (by simp))

theorem emitters_post (s : State) (b : Box) (f : Frame) : (s.post b f).emitters = s.emitters :=
  s.post_only b f .emitters (by decide)

theorem demand_setEmitter_same (s : State) (source : Fin 16) (e : Emitter) :
    (s.setEmitter source e).emitters.demand[source] = e := (set_get _ source source e).trans (if_pos rfl)

theorem demand_setEmitter_ne (s : State) {source m : Fin 16} (e : Emitter) (h : m ≠ source) :
    (s.setEmitter source e).emitters.demand[m] = s.emitters.demand[m] := (set_get _ source m e).trans (if_neg h.symm)

/-! ## The repeat timers -/

/-- A HELD emitter queues its DEMAND again and restarts its timer. -/
def repeatDemand (s : State) (source : Fin 16) (r : DemandRegime) (level : Nat) : State :=
  (s.setEmitter source (emitterHeld (repeatTime s.cfg))).post (.demand source)
    (demandFrame s source r level s.cfg.demandHoldS)

theorem execDemandRepeatExpiry_held {s : State} {source : Fin 16} {r : DemandRegime} {level : Nat}
    (condition : emitterDemand s.cfg source = some (r, level)) (held : s.emitters.demand[source].held = true)
    (timer : s.emitters.demand[source].timer.isSome = true) :
    exec (.demandRepeatExpiry source) s = .next (s.repeatDemand source r level).chooseOffer := by
  show execDemandRepeatExpiry source s = _
  unfold execDemandRepeatExpiry
  rw [condition]
  exact if_pos ⟨held, timer⟩

theorem execDemandRepeatExpiry_off {s : State} {source : Fin 16} (off : s.emitters.demand[source].held = false) :
    exec (.demandRepeatExpiry source) s = .next s.chooseOffer := by
  show execDemandRepeatExpiry source s = _
  unfold execDemandRepeatExpiry
  dsimp only
  split
  · rfl
  · exact if_neg fun held => absurd (off.symm.trans held.1) (by decide)

theorem repeatDemand_emitters (s : State) (source : Fin 16) (r : DemandRegime) (level : Nat) :
    (s.repeatDemand source r level).emitters = (s.setEmitter source (emitterHeld (repeatTime s.cfg))).emitters :=
  emitters_post _ _ _

/-- The safe emitter queues its SAFE with the reasons that hold now and restarts its timer. -/
def repeatSafe (s : State) : State :=
  (s.setSafeEmitter (emitterHeld safeRepeatTime)).post .safe (safeFrame s s.forceRequest s.ruleSafe s.cfg.safeHoldS)

theorem execSafeRepeatExpiry_held {s : State} (held : s.emitters.safe.held = true)
    (timer : s.emitters.safe.timer.isSome = true) : exec .safeRepeatExpiry s = .next s.repeatSafe.chooseOffer :=
  if_pos ⟨held, timer⟩

theorem execSafeRepeatExpiry_off {s : State} (off : s.emitters.safe.held = false) :
    exec .safeRepeatExpiry s = .next s.chooseOffer :=
  if_neg fun held => absurd (off.symm.trans held.1) (by decide)

/-! ## An emitter that ends -/

theorem emitterEnds_held {s : State} {source : Fin 16} (held : s.emitters.demand[source].held = true) :
    s.emitterEnds source = (s.setEmitter source emitterOff).post (.demand source) (withdrawFrame s source) :=
  if_pos held

theorem emitterEnds_off {s : State} {source : Fin 16} (off : s.emitters.demand[source].held = false) :
    s.emitterEnds source = s := if_neg fun held => absurd (off.symm.trans held) (by decide)

/-- The other emitters stay. -/
theorem emitterEnds_others (s : State) (source : Fin 16) : (s.emitterEnds source).emitters.safe = s.emitters.safe ∧
    ∀ m : Fin 16, m ≠ source → (s.emitterEnds source).emitters.demand[m] = s.emitters.demand[m] := by
  cases on : s.emitters.demand[source].held with
  | false =>
    rw [emitterEnds_off on]
    exact ⟨rfl, fun _ _ => rfl⟩
  | true =>
    rw [emitterEnds_held on, emitters_post]
    exact ⟨rfl, fun _ other => s.demand_setEmitter_ne _ other⟩

end State

/-! ## The end of a scrub (R108, R109) -/

/-- The scrub that runs in `s` has ended in `t`: its timers are stopped and a HELD emitter has withdrawn its demand. -/
structure ScrubEnded (s t : State) : Prop where
  scrub : t.scrub = scrubOff
  safe : t.emitters.safe = s.emitters.safe
  others : ∀ m : Fin 16, m ≠ 1 → t.emitters.demand[m] = s.emitters.demand[m]
  withdrawn : s.emitters.demand[(1 : Fin 16)].held = true → t.emitters.demand[(1 : Fin 16)] = emitterOff
  rests : s.emitters.demand[(1 : Fin 16)].held = false →
    t.emitters.demand[(1 : Fin 16)] = s.emitters.demand[(1 : Fin 16)]
  queued : s.emitters.demand[(1 : Fin 16)].held = true → s.startup.station ≠ .conflict →
    ∃ f, t.frames (.demand 1) = [f] ∧ f.kind = 5 ∧ f.index = 1 ∧ f.data.length = 3 ∧ f.byte 1 = 0
  silent : s.emitters.demand[(1 : Fin 16)].held = false → t.frames (.demand 1) = s.frames (.demand 1)

/-- What follows the scrub's end leaves it when it touches neither scrub, emitters nor the scrub's mailbox. -/
theorem ScrubEnded.after {s t u : State} (h : ScrubEnded s t) (scrub : u.scrub = t.scrub)
    (emitters : u.emitters = t.emitters) (frames : u.frames (.demand 1) = t.frames (.demand 1)) : ScrubEnded s u := by
  obtain ⟨ends, safe, others, withdrawn, rests, queued, silent⟩ := h
  rw [← emitters] at safe others withdrawn rests
  rw [← frames] at queued silent
  exact ⟨scrub.trans ends, safe, others, withdrawn, rests, queued, silent⟩

theorem ScrubEnded.chooseOffer {s t : State} (h : ScrubEnded s t) : ScrubEnded s t.chooseOffer :=
  h.after t.scrub_chooseOffer t.emitters_chooseOffer (t.frames_chooseOffer _)

theorem ScrubEnded.count {s t : State} (h : ScrubEnded s t) (c : Counter) : ScrubEnded s (t.count c) :=
  h.after (t.count_only c .scrub (by decide)) (t.count_only c .emitters (by decide))
    (State.frames_same (t.count_notes c (.box (.demand 1)) (by simp)))

namespace State

theorem endScrub_ended (s : State) : ScrubEnded s s.endScrub := by
  let u : State := { s with scrub := scrubOff }
  have rest (off : s.emitters.demand[(1 : Fin 16)].held = false) : s.endScrub = u := emitterEnds_off (s := u) off
  obtain ⟨safe, others⟩ := u.emitterEnds_others 1
  refine ⟨u.emitterEnds_only 1 .scrub (by decide), safe, others, fun held => ?_, fun off => ?_, fun held station => ?_,
    fun off => ?_⟩
  · exact (u.emitterEnds_ended 1 held).emitter
  · rw [rest off]
  · have same : s.endScrub.startup.station = s.startup.station := u.emitterEnds_only 1 .station (by decide)
    obtain ⟨f, frames, kind, index, -, length, level⟩ := (u.emitterEnds_ended 1 held).queued (same.symm ▸ station)
    exact ⟨f, frames, kind, index, length, level⟩
  · rw [rest off]
    rfl

/-- A scrub's end counts nothing but content that its withdrawal supersedes. -/
theorem endScrub_postNotes (s : State) : Notes (postNotes (.demand 1)) s s.endScrub :=
  (setScrub_notes s _).seq (emitterEnds_notes _ _) (by simp) (List.Subset.refl _)

theorem execScrubTimerExpiry_running {s : State} (active : s.scrub.active = true)
    (timer : s.scrub.timer.isSome = true) :
    exec .scrubTimerExpiry s = .next s.endScrub.chooseOffer := if_pos ⟨active, timer⟩

theorem execCheckTimerExpiry_running {s : State} (active : s.scrub.active = true)
    (timer : s.scrub.check.isSome = true) :
    exec .checkTimerExpiry s =
      if s.cabClean then .next (s.endScrub.count .scrubsEndedEarly).chooseOffer
      else .next ({ s with scrub := { s.scrub with check := some checkTime } } : State).chooseOffer :=
  if_pos ⟨active, timer⟩

/-- The cab is clean when its combined burden is known and not above the target (R109). -/
theorem cabClean_iff {s : State} : s.cabClean = true ↔ ∃ b, s.combinedBurden = some b ∧ b ≤ s.cfg.targetBurden := by
  unfold cabClean
  cases s.combinedBurden <;> simp

end State

/-- Settles O35: each timer by the one update its expiry makes, a scrub's end by `ScrubEnded`. -/
theorem emitterAndScrubTimersExpire : Obligations.EmitterAndScrubTimersExpire := by
  refine ⟨fun source s => ⟨fun r level condition held timer => ?_,
    fun off => ⟨_, State.execDemandRepeatExpiry_off off, Changes.choice s⟩, fun held timer => ?_,
    fun off => ⟨_, State.execSafeRepeatExpiry_off off, Changes.choice s⟩⟩, fun s active => ?_⟩
  · refine ⟨_, State.execDemandRepeatExpiry_held condition held timer, ?_⟩
    rw [State.emitters_chooseOffer, State.frames_chooseOffer, State.repeatDemand_emitters]
    refine ⟨s.demand_setEmitter_same source _, fun m other => s.demand_setEmitter_ne _ other, rfl,
      fun station => ?_, ?_⟩
    · exact ⟨_, State.frames_post _ _ _ station (by simp) (by simp), demandFrame_fields s source r level _⟩
    · exact Changes.ends ((s.setEmitter_only source _).append (State.post_only _ _ _))
        ((s.setEmitter_notes source _).seq (State.post_notes _ _ _) (by simp) (List.Subset.refl _))
  · refine ⟨_, State.execSafeRepeatExpiry_held held timer, ?_⟩
    rw [State.emitters_chooseOffer, State.frames_chooseOffer]
    refine ⟨State.emitters_post _ _ _, fun station => ?_, ?_⟩
    · exact ⟨_, State.frames_post _ _ _ station (by simp) (by simp), safeFrame_fields s _ _ _⟩
    · exact Changes.ends ((s.setSafeEmitter_only _).append (State.post_only _ _ _))
        ((s.setSafeEmitter_notes _).seq (State.post_notes _ _ _) (by simp) (List.Subset.refl _))
  · intro ended clean
    have ends {t : State} (h : ScrubEnded s t) : ended t :=
      ⟨h.scrub, h.safe, h.others, h.withdrawn, h.rests, h.queued, h.silent⟩
    refine ⟨fun timer => ?_, fun timer cab => ?_, fun timer cab => ?_⟩
    · exact ⟨_, State.execScrubTimerExpiry_running active timer, ends s.endScrub_ended.chooseOffer,
        Changes.ends s.endScrub_only s.endScrub_postNotes⟩
    · refine ⟨_, (State.execCheckTimerExpiry_running active timer).trans (if_pos (State.cabClean_iff.mpr cab)),
        ends (s.endScrub_ended.count _).chooseOffer, ?_, ?_⟩
      · have same : s.endScrub.cell .scrubsEndedEarly = s.cell .scrubsEndedEarly :=
          s.endScrub_postNotes (.counter .scrubsEndedEarly) (by decide)
        rw [State.cell_chooseOffer, State.cell_count, if_pos rfl, same]
      · exact Changes.ends (s.endScrub_only.append (State.count_only _ _))
          (s.endScrub_postNotes.seq (State.count_notes _ _) (by simp) (by simp))
    · refine ⟨_, (State.execCheckTimerExpiry_running active timer).trans
        (if_neg fun yes => cab (State.cabClean_iff.mp yes)), State.scrub_chooseOffer _, ?_⟩
      exact Changes.ends (s.setScrub_only _) (s.setScrub_notes _)

end Sys2Proof.Machine
end

section
/-! PROOFS. The doors of a CABIN and the start of the scrub (O15). -/

namespace Sys2Proof.Machine

open Sys2Proof

namespace State

theorem emittersWork_iff {s : State} :
    s.emittersWork = true ↔ s.startup.role ≠ .inlet ∧ s.startup.station = .running := by
  rw [emittersWork, Bool.and_eq_true, decide_eq_true_iff, decide_eq_true_iff]

/-! ## The start of a scrub (R108) -/

/-- The scrub runs and its start is counted; what is left is the emitter's beginning. -/
def scrubStarted (s : State) : State :=
  ({ s with scrub := { active := true, timer := some (seconds s.cfg.scrubTimeS), check := some checkTime } }).count
    .scrubsStarted

theorem scrubStarted_only (s : State) : Only (.scrub :: noteParts) s s.scrubStarted :=
  (setScrub_only s _).append (count_only _ _)

theorem startScrub_scrub (s : State) :
    s.startScrub.scrub = { active := true, timer := some (s.cfg.scrubTimeS * 1000), check := some 1000 } :=
  (s.scrubStarted.emitterBegins_only 1 .scrub (by decide)).trans (count_only _ .scrubsStarted .scrub (by decide))

theorem startScrub_counted (s : State) : s.startScrub.cell .scrubsStarted = (s.cell .scrubsStarted).add 1 :=
  (s.scrubStarted.emitterBegins_notes 1 (.counter .scrubsStarted) (by decide)).trans
    ((cell_count _ _ _).trans (if_pos rfl))

/-- On a station whose emitters work the start of the scrub raises SCRUB, when it is not raised yet (R105, R108). -/
theorem startScrub_raises {s : State} (works : s.emittersWork = true)
    (off : s.emitters.demand[(1 : Fin 16)].held = false) :
    EmitterBegun 1 .scrub s.cfg.scrubLevel s.startScrub := by
  have only := s.scrubStarted_only
  have cfg : s.scrubStarted.cfg = s.cfg := only .cfg (by decide)
  have emitters : s.scrubStarted.emitters = s.emitters := only .emitters (by decide)
  have role : s.scrubStarted.startup.role = s.startup.role := only .role (by decide)
  have station : s.scrubStarted.startup.station = s.startup.station := only .station (by decide)
  have working : s.scrubStarted.emittersWork = true := by rwa [emittersWork_iff, role, station, ← emittersWork_iff]
  refine emitterBegins_begun s.scrubStarted 1 .scrub s.cfg.scrubLevel ?_ working (emitters ▸ off)
  rw [cfg]
  rfl

theorem doorsChanged_closed {s : State} (running : s.startup.station = .running) (closed : s.anyDoorOpen = false) :
    s.doorsChanged = s.startScrub := by
  unfold doorsChanged
  rw [closed, if_pos running]
  rfl

theorem doorsChanged_opened {s : State} (opened : s.anyDoorOpen = true) (active : s.scrub.active = true) :
    s.doorsChanged = s.endScrub := (if_pos opened).trans (if_pos active)

/-! ## A debounced DOOR input (R18, R20) -/

/-- On a CABIN a DOOR input has its function outside LOADING. -/
theorem inputFunction_door {s : State} {n : Fin 4} (cabin : s.startup.role = .cabin)
    (station : s.startup.station ≠ .loading) (door : s.cfg.inputs[n].function = .door) :
    s.inputFunction n = .door := by
  unfold inputFunction
  rw [if_neg station, if_neg fun h => h.2 cabin]
  exact door

theorem anyDoorOpen_of_active {s : State} {n : Fin 4} (function : s.inputFunction n = .door)
    (active : s.inputActive n = true) : s.anyDoorOpen = true :=
  List.any_eq_true.mpr ⟨n, List.mem_finRange n, by rw [function, active]; rfl⟩

/-- A change of a DOOR input reaches no other function's level and not the force request. -/
theorem handLevels_door {s : State} {n : Fin 4} (station : s.startup.station ≠ .loading)
    (function : s.inputFunction n = .door) :
    ((s.takePin (.din n)).countDoor s (.din n)).handLevels s =
      if (s.takePin (.din n)).anyDoorOpen = s.anyDoorOpen then (s.takePin (.din n)).countDoor s (.din n)
      else ((s.takePin (.din n)).countDoor s (.din n)).doorsChanged := by
  let u := (s.takePin (.din n)).countDoor s (.din n)
  have level {f : InputFunction} (other : f ≠ .door) : u.functionLevel f = s.functionLevel f := by
    refine (functionLevel_countDoor _ s _ f).trans (Decidable.byContradiction fun changed => ?_)
    obtain ⟨m, same, its⟩ := functionLevel_takePin changed
    obtain rfl : n = m := Input.din.inj same
    exact other (its.symm.trans function)
  have force : u.forceRequest = s.forceRequest := by
    refine (forceRequest_countDoor _ s _).trans ?_
    unfold forceRequest
    rw [forceLevel_takePin_din, ← functionLevel_countDoor _ s (.din n), level (by decide)]
  have door : u.anyDoorOpen = (s.takePin (.din n)).anyDoorOpen := functionLevel_countDoor _ s _ .door
  have working : u.startup.station ≠ .loading := fun loading =>
    station ((countDoor_only (s.takePin (.din n)) s (.din n) .station (by decide)).symm.trans loading)
  show u.handLevels s = _
  unfold handLevels
  rw [if_neg working]
  dsimp only
  rw [if_pos (show u.recircSwitch = s.recircSwitch from level (by decide)),
    if_pos (show u.flushSwitch = s.flushSwitch from level (by decide)), if_pos force, door]

/-- Only an input that was not active before can open a door. -/
theorem countDoor_openings (s : State) {n : Fin 4} (function : s.inputFunction n = .door) :
    ((s.takePin (.din n)).countDoor s (.din n)).cell .doorOpenings =
      if (s.takePin (.din n)).inputActive n = true ∧ s.inputActive n = false then (s.cell .doorOpenings).add 1
      else s.cell .doorOpenings := by
  have opened : (s.takePin (.din n)).doorOpened s (.din n) = true ↔
      (s.takePin (.din n)).inputActive n = true ∧ s.inputActive n = false := by
    have same : (s.takePin (.din n)).inputFunction n = .door := function
    simp [doorOpened, same]
  unfold countDoor
  by_cases h : (s.takePin (.din n)).doorOpened s (.din n) = true
  · rw [if_pos h, if_pos (opened.mp h), cell_count, if_pos rfl]
    rfl
  · rw [if_neg h, if_neg fun k => h (opened.mpr k)]
    rfl

/-- Nothing that follows reaches the level just taken. -/
theorem inputActive_handed (s : State) (i : Input) (n : Fin 4) :
    (((s.takePin i).countDoor s i).handLevels s).chooseOffer.inputActive n = (s.takePin i).inputActive n := by
  have inputs : State.inputs _ = _ := s.takePin_handed_only i .inputs (by decide)
  have cfg : State.cfg _ = _ := s.takePin_handed_only i .cfg (by decide)
  unfold inputActive
  rw [inputs, cfg]

end State

/-- Settles O15: the doors are all that a DOOR input hands on, and their level names the operation of the scrub. -/
theorem doorsDriveTheScrub : Obligations.DoorsDriveTheScrub := by
  intro n s timer cabin running door
  have station : s.startup.station ≠ .loading := by rw [running]; decide
  have function := State.inputFunction_door cabin station door
  let d := s.takePin (.din n)
  let u := d.countDoor s (.din n)
  have before : Only (.inputs :: noteParts) s u := (s.takePin_only _).append (d.countDoor_only s _)
  have untouched : Notes [.counter .doorOpenings, .flag .counterRollover] s u :=
    ((s.takePin_notes _).mono (by simp)).trans (d.countDoor_notes s _)
  have cfg : u.cfg = s.cfg := before .cfg (by decide)
  have emitters : u.emitters = s.emitters := before .emitters (by decide)
  have level : u.anyDoorOpen = d.anyDoorOpen := State.functionLevel_countDoor _ s _ .door
  have openings : (u.handLevels s).chooseOffer.cell .doorOpenings = _ :=
    (State.cell_chooseOffer _ _).trans ((u.handLevels_notes s (.counter .doorOpenings) (by decide)).trans
      (s.countDoor_openings function))
  refine ⟨_, State.execDebounceExpiry_eq timer, fun wasOff isOn => ?_, fun wasOn => ?_, fun wasOpen isClosed => ?_,
    fun wasClosed isOpen active => ?_⟩
  · rw [s.inputActive_handed] at isOn
    rw [openings, if_pos ⟨isOn, wasOff⟩]
    exact ⟨rfl, (s.functionLevel_handed _ .door).trans (State.anyDoorOpen_of_active (s := d) function isOn)⟩
  · rw [openings, if_neg fun h => absurd (wasOn.symm.trans h.2) (by decide)]
  · have closed : d.anyDoorOpen = false := (s.functionLevel_handed _ .door).symm.trans isClosed
    have starts : u.handLevels s = u.startScrub := by
      rw [State.handLevels_door station function, if_neg (by rw [closed, wasOpen]; decide)]
      exact State.doorsChanged_closed ((before .station (by decide)).trans running) (level.trans closed)
    rw [starts, State.scrub_chooseOffer, State.cell_chooseOffer, State.emitters_chooseOffer, State.frames_chooseOffer,
      State.startScrub_scrub, State.startScrub_counted, cfg]
    refine ⟨rfl, congrArg (·.add 1) (untouched (.counter .scrubsStarted) (by decide)), fun off => ?_⟩
    have role : u.startup.role = .cabin := (before .role (by decide)).trans cabin
    have works : u.emittersWork = true :=
      State.emittersWork_iff.mpr ⟨by rw [role]; decide, (before .station (by decide)).trans running⟩
    obtain ⟨held, f, frames, kind, index, -, -, regime, byLevel, hold⟩ :=
      State.startScrub_raises works (emitters ▸ off)
    have same : u.startScrub.cfg = s.cfg := (u.startScrub_only .cfg (by decide)).trans cfg
    rw [cfg] at byLevel
    rw [same] at hold
    exact ⟨congrArg Emitter.held held, f, frames, kind, index, regime, byLevel, hold⟩
  · have opened : d.anyDoorOpen = true := (s.functionLevel_handed _ .door).symm.trans isOpen
    have ends : u.handLevels s = u.endScrub := by
      rw [State.handLevels_door station function, if_neg (by rw [opened, wasClosed]; decide)]
      have scrub : u.scrub = s.scrub := before .scrub (by decide)
      exact State.doorsChanged_opened (level.trans opened) (scrub.symm ▸ active)
    rw [ends, State.scrub_chooseOffer, State.cell_chooseOffer]
    exact ⟨u.endScrub_ended.scrub, (u.endScrub_postNotes (.counter .scrubsEndedEarly) (by decide)).trans
      (untouched (.counter .scrubsEndedEarly) (by decide))⟩

end Sys2Proof.Machine
end

section
/-! PROOFS. The insertion into the demand list (O31): the place, the stamps, and the order by level. -/

namespace Sys2Proof.Machine

open Sys2Proof

/-- The entries stand by level, the higher first (R93). -/
abbrev ByLevel (l : List DemandEntry) : Prop := l.Pairwise fun a b => b.level ≤ a.level

/-! ## The place of an entry (R94) -/

/-- The entry placed splits the list: at its level or higher what stands before it, lower what comes next. -/
theorem placeEntry_splits (e : DemandEntry) (l : List DemandEntry) : ∃ before after,
    placeEntry e l = before ++ e :: after ∧ l = before ++ after ∧ (∀ x ∈ before, e.level ≤ x.level) ∧
      ∀ x ∈ after.head?, x.level < e.level := by
  induction l with
  | nil => exact ⟨[], [], rfl, rfl, nofun, nofun⟩
  | cons x xs ih =>
    by_cases stays : e.level ≤ x.level
    · obtain ⟨before, after, placed, same, high, low⟩ := ih
      refine ⟨x :: before, after, (if_pos stays).trans (congrArg (x :: ·) placed), congrArg (x :: ·) same, ?_, low⟩
      exact List.forall_mem_cons.mpr ⟨stays, high⟩
    · refine ⟨[], x :: xs, if_neg stays, rfl, nofun, fun y head => ?_⟩
      obtain rfl : x = y := Option.some.inj head
      exact Nat.lt_of_not_le stays

/-- Behind a first entry of a lower level every entry is of a lower level. -/
theorem ByLevel.below {l : List DemandEntry} (h : ByLevel l) {n : Nat} (low : ∀ x ∈ l.head?, x.level < n) :
    ∀ x ∈ l, x.level < n := by
  cases l with
  | nil => nofun
  | cons a as =>
    have first : a.level < n := low a rfl
    exact List.forall_mem_cons.mpr ⟨first, fun x hx => ((List.pairwise_cons.mp h).1 x hx).trans_lt first⟩

theorem ByLevel.place {l : List DemandEntry} (h : ByLevel l) (e : DemandEntry) : ByLevel (placeEntry e l) := by
  obtain ⟨before, after, placed, rfl, high, low⟩ := placeEntry_splits e l
  obtain ⟨first, second, across⟩ := List.pairwise_append.mp h
  have below : ∀ x ∈ after, x.level ≤ e.level := fun x hx => (ByLevel.below second low x hx).le
  rw [placed]
  refine List.pairwise_append.mpr ⟨first, List.pairwise_cons.mpr ⟨below, second⟩, fun x hx => ?_⟩
  exact List.forall_mem_cons.mpr ⟨high x hx, across x hx⟩

/-! ## The renumbering (R94) -/

theorem renumberFrom_stamps (n : Nat) (l : List DemandEntry) :
    (renumberFrom n l).map (·.stamp) = List.range' n l.length := by
  induction l generalizing n with
  | nil => rfl
  | cons x xs ih => exact congrArg (n :: ·) (ih (n + 1))

/-- Renumbering leaves what is read of an entry beside its stamp. -/
theorem renumberFrom_map {α : Type} {f : DemandEntry → α} (hf : ∀ x k, f { x with stamp := k } = f x) (n : Nat)
    (l : List DemandEntry) : (renumberFrom n l).map f = l.map f := by
  induction l generalizing n with
  | nil => rfl
  | cons x xs ih => exact congrArg₂ List.cons (hf x n) (ih (n + 1))

namespace DemandList

theorem renumbered_last {l : DemandList} (h : l.nextStamp = 65535) :
    l.renumbered = { entries := renumberFrom 0 l.entries, nextStamp := l.entries.length } := if_pos h

theorem renumbered_before {l : DemandList} (h : l.nextStamp ≠ 65535) : l.renumbered = l := if_neg h

theorem renumbered_nextStamp (l : DemandList) :
    l.renumbered.nextStamp = if l.nextStamp = 65535 then l.entries.length else l.nextStamp := by
  split
  · next last => rw [renumbered_last last]
  · next other => rw [renumbered_before other]

theorem renumbered_levels (l : DemandList) : l.renumbered.entries.map (·.level) = l.entries.map (·.level) := by
  by_cases last : l.nextStamp = 65535
  · rw [renumbered_last last]
    exact renumberFrom_map (fun _ _ => rfl) 0 l.entries
  · rw [renumbered_before last]

theorem renumbered_byLevel {l : DemandList} (h : ByLevel l.entries) : ByLevel l.renumbered.entries := by
  have levels {es : List DemandEntry} : ByLevel es ↔ (es.map (·.level)).Pairwise (fun a b => b ≤ a) := by
    rw [List.pairwise_map]
  rw [levels, renumbered_levels]
  exact levels.mp h

end DemandList

/-- Settles O31: the renumbered list split by `placeEntry_splits`. -/
theorem insertionKeepsTheListOrder : Obligations.InsertionKeepsTheListOrder := by
  intro l e m base
  have stamp : l.renumbered.nextStamp = base := l.renumbered_nextStamp
  have entries : m.entries = placeEntry { e with stamp := base } l.renumbered.entries := by
    rw [← stamp]
    rfl
  refine ⟨congrArg (· + 1) stamp, ?_, fun ordered => ?_⟩
  · obtain ⟨before, after, placed, same, high, low⟩ := placeEntry_splits { e with stamp := base } l.renumbered.entries
    refine ⟨before, after, entries.trans placed, high, low, fun other => ?_, fun last => ?_⟩
    · rw [← same, DemandList.renumbered_before other]
    · rw [← same, DemandList.renumbered_last last]
      exact ⟨(renumberFrom_stamps 0 l.entries).trans List.range_eq_range'.symm,
        renumberFrom_map (fun _ _ => rfl) 0 l.entries⟩
  · rw [entries]
    exact (DemandList.renumbered_byLevel ordered).place _

end Sys2Proof.Machine
end

section
/-! PROOFS. A DEMAND at the demand list of an INLET (O32): its checks, its cases, and the regime selected again. -/

namespace Sys2Proof.Machine

open Sys2Proof

/-! ## The regime selected again at the end of an event (R103, R104) -/

theorem RegimeSelected.chooseOffer {t : State} (h : RegimeSelected t) : RegimeSelected t.chooseOffer := by
  obtain ⟨x, same, -⟩ := t.chooseOffer_eq_transmit
  rw [same]
  exact h

theorem TargetsHanded.chooseOffer {t : State} (h : TargetsHanded t) : TargetsHanded t.chooseOffer := by
  obtain ⟨x, same, -⟩ := t.chooseOffer_eq_transmit
  rw [same]
  exact h.withTransmit

namespace State

theorem demands_reselected (u : State) : u.reselect.chooseOffer.demands = u.demands :=
  (u.reselect.chooseOffer_only .demands (by decide)).trans (u.reselect_only .demands (by decide))

theorem cell_reselected (u : State) (c : Counter) (h : .counter c ∉ rampNotes) :
    u.reselect.chooseOffer.cell c = u.cell c := (cell_chooseOffer _ c).trans (u.reselect_notes (.counter c) h)

theorem flag_reselected (u : State) (f : Flag) (h : .flag f ∉ rampNotes) :
    u.reselect.chooseOffer.flag f = u.flag f := (flag_chooseOffer _ f).trans (u.reselect_notes (.flag f) h)

/-- After an update that leaves station, role and regime, the regime is selected again. -/
theorem selected_reselected {ps : List Part} {s u : State} (only : Only ps s u) (works : s.listWorks = true)
    (role : Part.role ∉ ps := by decide) (station : Part.station ∉ ps := by decide)
    (regime : Part.regime ∉ ps := by decide) : RegimeSelected u.reselect.chooseOffer ∧
      (u.reselect.chooseOffer.regime ≠ s.regime → TargetsHanded u.reselect.chooseOffer) := by
  obtain ⟨inlet, running⟩ := s.listWorks_iff.mp works
  have works : u.listWorks = true := u.listWorks_iff.mpr
    ⟨(only .role role).trans inlet, fun loading => running ((only .station station).symm.trans loading)⟩
  have same : u.regime = s.regime := only .regime regime
  have chosen : u.reselect.chooseOffer.regime = u.reselect.regime := u.reselect.chooseOffer_only .regime (by decide)
  obtain ⟨selected, handed⟩ := u.reselect_selected works
  rw [chosen, ← same]
  exact ⟨selected.chooseOffer, fun differs => (handed differs).chooseOffer⟩

end State

/-- The frame of an event that ends with the regime selected again. -/
theorem Changes.reselected {ps : List Part} {ns ms : List Note} {s u : State} (only : Only ps s u)
    (notes : Notes ns s u) (inside : ns ⊆ ms) (ramps : rampNotes ⊆ ms) {qs : List Part}
    (parts : ps ++ regimeParts ⊆ .offer :: .boxes :: .counters :: .flagBits :: qs := by decide)
    (ho : Part.offer ∉ ps ++ regimeParts := by decide) : Changes qs ms s u.reselect.chooseOffer :=
  Changes.ends (only.append u.reselect_only) (notes.seq u.reselect_notes inside ramps) parts ho

/-! ## Keys of the list (R93) -/

theorem DemandEntry.hasKey_iff {e : DemandEntry} {n : Fin 8} {source : Fin 16} :
    e.hasKey n source = true ↔ e.station = n ∧ e.source = source := decide_eq_true_iff

theorem DemandList.remove_eq (l : DemandList) (n : Fin 8) (source : Fin 16) : l.remove n source =
    { l with entries := l.entries.filter fun x => decide ¬ (x.station = n ∧ x.source = source) } :=
  congrArg (fun p => { l with entries := l.entries.filter p }) (funext fun _ => decide_not.symm)

theorem DemandList.find_eq_none {l : DemandList} {n : Fin 8} {source : Fin 16} :
    l.find n source = none ↔ ∀ x ∈ l.entries, ¬ (x.station = n ∧ x.source = source) := by
  simp only [DemandList.find, List.find?_eq_none, DemandEntry.hasKey_iff]

theorem DemandList.refreshInPlace_eq (l : DemandList) (e : DemandEntry) : l.refreshInPlace e =
    { l with entries := l.entries.map fun x =>
        if x.station = e.station ∧ x.source = e.source then { x with hold := e.hold, regime := e.regime } else x } :=
  congrArg (fun g => { l with entries := l.entries.map g })
    (funext fun _ => ite_congr (propext DemandEntry.hasKey_iff) (fun _ => rfl) fun _ => rfl)

theorem evictionCandidate_isMessage {l : List DemandEntry} {v : DemandEntry} (h : evictionCandidate l = some v) :
    v.hold.isSome = true := by
  induction l generalizing v with
  | nil => cases h
  | cons x xs ih =>
    unfold evictionCandidate at h
    cases later : evictionCandidate xs with
    | none =>
      rw [later] at h
      obtain ⟨message, same⟩ := Option.ite_none_right_eq_some.mp h
      exact Option.some.inj same ▸ message
    | some y =>
      rw [later] at h
      dsimp only at h
      split at h
      · next first =>
        obtain rfl := Option.some.inj h
        exact (Bool.and_eq_true_iff.mp first).1
      · obtain rfl := Option.some.inj h
        exact ih later

/-! ## The checks (R95) -/

theorem demandRegimeOfCode_eq_some {c : Nat} {r : DemandRegime} :
    demandRegimeOfCode c = some r ↔ demandRegimeCode r = c := by
  constructor
  · intro h
    unfold demandRegimeOfCode at h
    split at h <;> cases h <;> rfl
  · rintro rfl
    cases r <;> rfl

theorem demandRegimeOfCode_isNone {c : Nat} : (demandRegimeOfCode c).isNone = true ↔ c < 1 ∨ 3 < c := by
  match c with
  | 0 | 1 | 2 | 3 => decide
  | c + 4 => exact iff_of_true rfl (by omega)

theorem Presence.isSilent_iff {p : Presence} : p.isSilent = true ↔ ∃ i, p = .silent i := by
  cases p <;> simp [Presence.isSilent]

theorem demandDiscarded_iff {source : Fin 16} {level regime hold : Nat} {silent : Bool} :
    demandDiscarded source level regime hold silent = true ↔ source = 5 ∨ source = 6 ∨ source = 7 ∨ 7 < level ∨
      (1 ≤ level ∧ (regime < 1 ∨ 3 < regime ∨ hold = 0)) ∨ silent = true := by
  simp only [demandDiscarded, Bool.or_eq_true, Bool.and_eq_true, decide_eq_true_eq, demandRegimeOfCode_isNone, or_assoc]

/-- A DEMAND is discarded (R95). -/
def State.DiscardsDemand (s : State) (f : Frame) : Prop :=
  f.index = 5 ∨ f.index = 6 ∨ f.index = 7 ∨ 7 < f.byte 1 ∨
    (1 ≤ f.byte 1 ∧ (f.byte 0 < 1 ∨ 3 < f.byte 0 ∨ f.byte 2 = 0)) ∨ ∃ i, s.peers[f.station].presence = .silent i

/-- The message entry of a DEMAND (R93, R96). -/
def messageEntry (f : Frame) (r : DemandRegime) : DemandEntry :=
  { station := f.station, source := f.index, regime := r, level := f.byte 1, hold := some (f.byte 2 * 1000)
    stamp := 0 }

namespace Delivered

variable {s : State} {f : Frame} {rest : List Frame}

theorem demandTaken_elsewhere (h : Delivered s 5 f rest) (other : s.startup.role ≠ .inlet) :
    exec .demandTaken s = .next s.dequeue.chooseOffer := by
  show execDemandTaken s = _
  unfold execDemandTaken
  rw [h.headOf]
  exact if_neg other

theorem demandTaken_inlet (h : Delivered s 5 f rest) (inlet : s.startup.role = .inlet) :
    exec .demandTaken s = .next (s.dequeue.takeDemandEntry f).reselect.chooseOffer := by
  show execDemandTaken s = _
  unfold execDemandTaken
  rw [h.headOf]
  exact if_pos inlet

theorem listWorks (h : Delivered s 5 f rest) (inlet : s.startup.role = .inlet) : s.listWorks = true :=
  s.listWorks_iff.mpr ⟨inlet, h.station⟩

end Delivered

namespace State

variable {s : State} {f : Frame}

/-! ## The cases of a DEMAND (R95 to R97) -/

theorem discardsDemand_iff : demandDiscarded f.index (f.byte 1) (f.byte 0) (f.byte 2)
    s.peers[f.station].presence.isSilent = true ↔ s.DiscardsDemand f := by
  rw [demandDiscarded_iff, Presence.isSilent_iff]
  rfl

theorem takeDemandEntry_discarded (h : s.DiscardsDemand f) : s.takeDemandEntry f = s.count .discarded :=
  if_pos (discardsDemand_iff.mpr h)

theorem takeDemandEntry_withdraws (h : ¬ s.DiscardsDemand f) (level : f.byte 1 = 0) :
    s.takeDemandEntry f = { s with demands := s.demands.remove f.station f.index } :=
  (if_neg fun bad => h (discardsDemand_iff.mp bad)).trans (if_pos level)

/-- A message entry that is not held is raised, a held one is refreshed (R95). -/
def takeEntry (s : State) (e : DemandEntry) : State :=
  match s.demands.find e.station e.source with
  | none => s.raiseMessage e
  | some old => s.refreshMessage old e

theorem takeDemandEntry_entry {r : DemandRegime} (h : ¬ s.DiscardsDemand f) (level : 1 ≤ f.byte 1)
    (code : demandRegimeCode r = f.byte 0) : s.takeDemandEntry f = s.takeEntry (messageEntry f r) := by
  unfold takeDemandEntry
  dsimp only
  rw [if_neg fun bad => h (discardsDemand_iff.mp bad), if_neg (Nat.ne_of_gt level), demandRegimeOfCode_eq_some.mpr code]
  rfl

theorem takeEntry_raises {e : DemandEntry}
    (free : ∀ x ∈ s.demands.entries, ¬ (x.station = e.station ∧ x.source = e.source)) :
    s.takeEntry e = s.raiseMessage e := by
  unfold takeEntry
  rw [DemandList.find_eq_none.mpr free]

theorem takeEntry_refreshes {e old : DemandEntry} (held : s.demands.find e.station e.source = some old) :
    s.takeEntry e = s.refreshMessage old e := by
  unfold takeEntry
  rw [held]

/-! ## What the cases do to the list and its counts -/

/-- The list takes a value, and one count is made. -/
theorem setDemandsCount_fields (s : State) (l : DemandList) (c : Counter) :
    (({ s with demands := l } : State).count c).demands = l ∧
      (({ s with demands := l } : State).count c).cell c = (s.cell c).add 1 :=
  ⟨count_only _ c .demands (by decide), (cell_count _ c c).trans (if_pos rfl)⟩

theorem raiseMessage_room {e : DemandEntry} (room : s.demands.entries.length < 16) :
    s.raiseMessage e = s.insertRaised e := if_pos room

/-- Room is made for an entry of a higher level than the one that goes first (R96). -/
theorem raiseMessage_evicts {e v : DemandEntry} (full : 16 ≤ s.demands.entries.length)
    (first : evictionCandidate s.demands.entries = some v) (lower : v.level < e.level) :
    s.raiseMessage e = s.insertFor v e := by
  refine (if_neg (Nat.not_lt.mpr full)).trans ?_
  rw [first]
  exact if_pos lower

/-- With no message entry of a lower level the entry is refused (R96). -/
theorem raiseMessage_refuses {e : DemandEntry} (full : 16 ≤ s.demands.entries.length)
    (higher : ∀ w ∈ s.demands.entries, w.hold.isSome = true → e.level ≤ w.level) :
    s.raiseMessage e = s.refuseDemand := by
  refine (if_neg (Nat.not_lt.mpr full)).trans ?_
  cases first : evictionCandidate s.demands.entries with
  | none => rfl
  | some v =>
    exact if_neg (Nat.not_lt.mpr (higher v (Act.evictionCandidate_mem first) (evictionCandidate_isMessage first)))

theorem insertFor_fields (s : State) (v e : DemandEntry) :
    (s.insertFor v e).demands = (s.demands.remove v.station v.source).insert e ∧
      (s.insertFor v e).cell .demandEvicted = (s.cell .demandEvicted).add 1 ∧
      (s.insertFor v e).cell .raised = (s.cell .raised).add 1 := by
  let l := (s.demands.remove v.station v.source).insert e
  obtain ⟨demands, evicted⟩ := s.setDemandsCount_fields l .demandEvicted
  have unraised : (({ s with demands := l } : State).count .demandEvicted).cell .raised = s.cell .raised :=
    s.setDemandsCount_notes l .demandEvicted (.counter .raised) (by decide)
  refine ⟨(count_only _ .raised .demands (by decide)).trans demands, ?_, ?_⟩
  · exact (count_notes _ .raised (.counter .demandEvicted) (by decide)).trans evicted
  · exact (cell_count _ .raised .raised).trans ((if_pos rfl).trans (congrArg (·.add 1) unraised))

theorem refuseDemand_fields (s : State) : s.refuseDemand.demands = s.demands ∧
    s.refuseDemand.cell .refused = (s.cell .refused).add 1 ∧ s.refuseDemand.flag .demandOverflow = true :=
  ⟨count_only s .refused .demands (by decide), (s.cell_count _ _).trans (if_pos rfl),
    (flag_writeFlag _ _ _ _).trans (if_pos rfl)⟩

theorem refuseDemand_noteParts (s : State) : Only noteParts s s.refuseDemand :=
  (count_only s _).seq (writeFlag_only _ _ _) (by decide) (by decide)

theorem refuseDemand_counts (s : State) :
    Notes [.counter .refused, .flag .counterRollover, .flag .demandOverflow] s s.refuseDemand :=
  (s.count_notes _).seq (writeFlag_notes _ _ _) (by decide) (by decide)

theorem refreshMessage_same {old e : DemandEntry} (level : e.level = old.level) :
    s.refreshMessage old e = ({ s with demands := s.demands.refreshInPlace e } : State).count .refreshed := if_pos level

theorem refreshMessage_moved {old e : DemandEntry} (level : e.level ≠ old.level) : s.refreshMessage old e =
    ({ s with demands := (s.demands.remove e.station e.source).insert e } : State).count .refreshed := if_neg level

/-- A refresh is counted, whatever it does to the list. -/
theorem refreshMessage_counted (s : State) (old e : DemandEntry) :
    (s.refreshMessage old e).cell .refreshed = (s.cell .refreshed).add 1 := by
  by_cases level : e.level = old.level
  · rw [refreshMessage_same level]
    exact (s.setDemandsCount_fields _ .refreshed).2
  · rw [refreshMessage_moved level]
    exact (s.setDemandsCount_fields _ .refreshed).2

theorem refreshMessage_counts (s : State) (old e : DemandEntry) :
    Notes [.counter .refreshed, .flag .counterRollover] s (s.refreshMessage old e) :=
  Notes.ite (s.setDemandsCount_notes _ _) (s.setDemandsCount_notes _ _)

end State

/-- Settles O32: each case of a DEMAND by the update of the list it makes, the regime's selection behind it. -/
theorem demandTakenByTheDemandList : Obligations.DemandTakenByTheDemandList := by
  intro s f rest delivered n source level discarded key new others
  by_cases inlet : s.startup.role = .inlet
  swap
  · refine ⟨_, delivered.demandTaken_elsewhere inlet, (State.queue_chooseOffer _).trans delivered.dequeued,
      fun _ => Changes.ends s.dequeue_only s.dequeue_notes, (absurd · inlet), (absurd · inlet), (absurd · inlet),
      fun _ => (absurd · inlet), Changes.ends s.dequeue_only (s.dequeue_notes.mono (by simp))⟩
  let d := s.dequeue
  let x := d.takeDemandEntry f
  have only : Only (.queue :: State.entryParts) s x := (d.takeDemandEntry_only f).taken
  have notes : Notes messageNotes s x := (d.takeDemandEntry_notes f).taken
  have removed (m : Fin 8) (k : Fin 16) : d.demands.remove m k = others m k := DemandList.remove_eq _ _ _
  refine ⟨x.reselect.chooseOffer, delivered.demandTaken_inlet inlet, ?_, (absurd inlet ·),
    fun _ => State.selected_reselected only (delivered.listWorks inlet), fun _ bad => ?_, fun _ good zero => ?_,
    fun r _ good positive code => ?_, Changes.reselected only notes (by simp) (by simp)⟩
  · exact (State.queue_chooseOffer _).trans ((x.reselect_only .queue (by decide)).trans
      ((d.takeDemandEntry_only f .queue (by decide)).trans delivered.dequeued))
  · rw [show x = d.count .discarded from State.takeDemandEntry_discarded bad, State.demands_reselected,
      State.cell_reselected _ _ (by decide)]
    exact ⟨d.count_only _ .demands (by decide), (d.cell_count _ _).trans (if_pos rfl),
      Changes.reselected (d.count_only _).taken (d.count_notes _).taken (by simp) (by simp)⟩
  · rw [show x = _ from State.takeDemandEntry_withdraws good zero, State.demands_reselected]
    exact ⟨removed n source,
      Changes.reselected (d.setDemands_only _).taken (d.setDemands_notes _).taken (by simp) (List.Subset.refl _)⟩
  · rw [show x = d.takeEntry (new r) from State.takeDemandEntry_entry good positive code]
    refine ⟨fun old held => ?_, fun free room => ?_, fun free full => ⟨fun v held message first lower => ?_,
      fun higher => ?_⟩⟩
    · rw [State.takeEntry_refreshes (s := d) (e := new r) held, State.demands_reselected,
        State.cell_reselected _ _ (by decide)]
      refine ⟨d.refreshMessage_counted old _, fun same => ?_, fun moved => ?_, ?_⟩
      · rw [State.refreshMessage_same (e := new r) same.symm]
        exact (d.setDemandsCount_fields _ _).1.trans (DemandList.refreshInPlace_eq _ _)
      · rw [State.refreshMessage_moved (e := new r) (Ne.symm moved), ← removed]
        exact (d.setDemandsCount_fields _ _).1
      · exact Changes.reselected (d.refreshMessage_only old _).taken (d.refreshMessage_counts old _).taken (by simp)
          (by simp)
    · rw [State.takeEntry_raises (s := d) (e := new r) free, State.raiseMessage_room (s := d) room,
        State.demands_reselected, State.cell_reselected _ _ (by decide)]
      obtain ⟨demands, raised⟩ := d.setDemandsCount_fields (d.demands.insert (new r)) .raised
      exact ⟨demands, raised, Changes.reselected (d.setDemandsCount_only _ _).taken
        (d.setDemandsCount_notes _ _).taken (by simp) (by simp)⟩
    · have candidate := State.evictionCandidate_unique held message first
      rw [State.takeEntry_raises (s := d) (e := new r) free, State.raiseMessage_evicts (s := d) full candidate lower,
        State.demands_reselected, State.cell_reselected _ _ (by decide), State.cell_reselected _ _ (by decide),
        ← removed]
      obtain ⟨demands, evicted, raised⟩ := d.insertFor_fields v (new r)
      exact ⟨demands, evicted, raised,
        Changes.reselected (d.insertFor_only v _).taken (d.insertFor_notes v _).taken (by simp) (by simp)⟩
    · rw [State.takeEntry_raises (s := d) (e := new r) free,
        State.raiseMessage_refuses (s := d) (e := new r) full higher, State.demands_reselected,
        State.cell_reselected _ _ (by decide), State.flag_reselected _ _ (by decide)]
      obtain ⟨demands, refused, overflow⟩ := d.refuseDemand_fields
      exact ⟨demands, refused, overflow,
        Changes.reselected d.refuseDemand_noteParts.taken d.refuseDemand_counts.taken (by simp) (by simp)⟩

end Sys2Proof.Machine
end

section
/-! PROOFS. A SAFE at the safe-source set of an INLET (O33), and the demand holds and safe holds that run out (O34). -/

namespace Sys2Proof.Machine

open Sys2Proof

/-! ## The passages of the safe-source set (R101, R102) -/

/-- A set with a SAFE·n member holds a member. -/
theorem SafeSet.nonempty_of_remote {q : SafeSet} {n : Fin 8} (h : q.remote[n].isSome = true) : q.nonempty = true :=
  SafeSet.nonempty_iff.mpr (.inr (.inr (.inr ⟨n, h⟩)))

namespace State

theorem ramps_chooseOffer (s : State) : s.chooseOffer.ramps = s.ramps :=
  ramps_ext (s.chooseOffer_only .damper (by decide)) (s.chooseOffer_only .blower (by decide))
    (s.chooseOffer_only .settle (by decide))

theorem setSafeSet_only (s : State) (q : SafeSet) : Only [.safeSet] s { s with safe := q } := by
  intro p hp
  cases p <;> first | rfl | exact ⟨rfl, rfl⟩ | exact ⟨rfl, rfl, rfl⟩ | exact absurd (by decide) hp

/-- A set that is empty, or holds a member, before and after is all that changes. -/
theorem setSafe_inside {s : State} {q : SafeSet} (works : s.listWorks = true)
    (same : s.safe.nonempty = q.nonempty) : s.setSafe q = { s with safe := q } := by
  unfold setSafe
  rw [if_neg (by rw [works]; decide), same]
  cases q.nonempty <;> rfl

theorem setSafe_enters {s : State} {q : SafeSet} (works : s.listWorks = true) (empty : s.safe.nonempty = false)
    (some : q.nonempty = true) : s.setSafe q =
      (({ s with safe := q, regime := .safe } : State).setFlag .safeActive).applySafePosition := by
  unfold setSafe
  rw [if_neg (by rw [works]; decide), empty, some]

/-- With safe jump set the position is applied by a jump of both channels (R132). -/
theorem applySafePosition_jumps {s : State} (inlet : s.startup.role = .inlet) (jump : s.cfg.safeJump = true) :
    s.applySafePosition.ramps.damper = s.ramps.damper.jump s.cfg.mix.safeDamper ∧
      s.applySafePosition.ramps.blower = s.ramps.blower.jump s.cfg.mix.safeBlower := by
  obtain ⟨damper, blower⟩ := s.putChannel_damper (s.ramps.damper.jump s.cfg.mix.safeDamper)
  unfold applySafePosition
  dsimp only
  rw [if_neg (not_not_intro inlet), if_pos jump]
  exact ⟨damper, congrArg (Channel.jump · s.cfg.mix.safeBlower) blower⟩

/-- The passage from empty with safe jump set: both channels stand at their safe codes, IDLE. -/
theorem setSafe_jumps {s : State} {q : SafeSet} (works : s.listWorks = true) (empty : s.safe.nonempty = false)
    (some : q.nonempty = true) (jump : s.cfg.safeJump = true) :
    (s.setSafe q).ramps.damper = s.ramps.damper.jump s.cfg.mix.safeDamper ∧
      (s.setSafe q).ramps.blower = s.ramps.blower.jump s.cfg.mix.safeBlower := by
  rw [setSafe_enters works empty some]
  exact applySafePosition_jumps (s := ({ s with safe := q, regime := .safe } : State).setFlag .safeActive)
    (s.listWorks_iff.mp works).1 jump

/-! ## SAFE messages (R101) -/

/-- The member a SAFE with a hold makes: its reasons and its hold (R101). -/
def memberOf (f : Frame) : SafeMember :=
  { force := (f.byte 0).testBit 0, rule := (f.byte 0).testBit 1, holdMs := f.byte 1 * 1000 }

theorem takeSafe_silent {s : State} {f : Frame} (h : ∃ i, s.peers[f.station].presence = .silent i) :
    s.takeSafe f = s.count .discarded := if_pos (Presence.isSilent_iff.mpr h)

theorem takeSafe_releases {s : State} {f : Frame} (h : ¬ ∃ i, s.peers[f.station].presence = .silent i)
    (hold : f.byte 1 = 0) : s.takeSafe f = s.setRemoteMember f.station none :=
  (if_neg fun silent => h (Presence.isSilent_iff.mp silent)).trans (if_pos hold)

theorem takeSafe_holds {s : State} {f : Frame} (h : ¬ ∃ i, s.peers[f.station].presence = .silent i)
    (hold : 1 ≤ f.byte 1) : s.takeSafe f = s.setRemoteMember f.station (some (memberOf f)) :=
  (if_neg fun silent => h (Presence.isSilent_iff.mp silent)).trans (if_neg (Nat.ne_of_gt hold))

/-- A SAFE reaches the safe-source set and the regime, and no entry of the demand list. -/
theorem takeSafe_parts (s : State) (f : Frame) : Only (.safeSet :: regimeParts) s (s.takeSafe f) :=
  Only.ite ((s.count_only _).mono (by decide)) (Only.ite (s.setSafe_only _) (s.setSafe_only _))

end State

theorem Delivered.safeTaken_elsewhere {s : State} {f : Frame} {rest : List Frame} (h : Delivered s 1 f rest)
    (other : s.startup.role ≠ .inlet) : exec .safeTaken s = .next s.dequeue.chooseOffer := by
  show execSafeTaken s = _
  unfold execSafeTaken
  rw [h.headOf]
  exact if_neg other

theorem Delivered.safeTaken_inlet {s : State} {f : Frame} {rest : List Frame} (h : Delivered s 1 f rest)
    (inlet : s.startup.role = .inlet) : exec .safeTaken s = .next (s.dequeue.takeSafe f).chooseOffer := by
  show execSafeTaken s = _
  unfold execSafeTaken
  rw [h.headOf]
  exact if_pos inlet

/-- Settles O33: the sender's member taken or released is one new value of the set, and `setSafe_handed` says what its
passages hand on. -/
theorem safeTakenByTheSafeSourceSet : Obligations.SafeTakenByTheSafeSourceSet := by
  intro s f rest delivered n silent
  by_cases inlet : s.startup.role = .inlet
  swap
  · exact ⟨_, delivered.safeTaken_elsewhere inlet, (State.queue_chooseOffer _).trans delivered.dequeued,
      fun _ => Changes.ends s.dequeue_only s.dequeue_notes, (absurd · inlet), (absurd · inlet), (absurd · inlet),
      Changes.ends s.dequeue_only (s.dequeue_notes.mono (by simp))⟩
  let d := s.dequeue
  have works : d.listWorks = true := d.listWorks_iff.mpr ⟨inlet, delivered.station⟩
  have handed (q : SafeSet) : SafeReasonHanded q d (d.setSafe q).chooseOffer := (d.setSafe_handed q inlet).chooseOffer
  refine ⟨_, delivered.safeTaken_inlet inlet, ?_, (absurd inlet ·), fun _ mute => ?_, fun _ heard zero => ?_,
    fun _ heard some => ?_, Changes.ends (d.takeSafe_parts f).taken (d.takeSafe_notes f).taken⟩
  · exact (State.queue_chooseOffer _).trans ((d.takeSafe_only f .queue (by decide)).trans delivered.dequeued)
  · rw [show d.takeSafe f = _ from State.takeSafe_silent mute, State.cell_chooseOffer]
    exact ⟨(d.cell_count _ _).trans (if_pos rfl), Changes.ends (d.count_only _).taken (d.count_notes _).taken⟩
  · rw [show d.takeSafe f = _ from State.takeSafe_releases heard zero]
    have set := (handed { s.safe with remote := s.safe.remote.set n none }).set inlet delivered.station
    refine ⟨set, fun before empty => (handed _).left inlet delivered.station before (set ▸ empty)⟩
  · rw [show d.takeSafe f = _ from State.takeSafe_holds heard some]
    let m := Option.some (State.memberOf f)
    let q : SafeSet := { s.safe with remote := s.safe.remote.set n m }
    have entered : q.nonempty = true := SafeSet.nonempty_of_remote (n := n)
      (congrArg Option.isSome ((set_get s.safe.remote n n m).trans (if_pos rfl)))
    refine ⟨(handed q).set inlet delivered.station, fun empty => ?_⟩
    obtain ⟨flag, regime, damper, blower⟩ := (handed q).entered inlet delivered.station empty entered
    refine ⟨flag, regime, damper, blower, fun jump => ?_⟩
    obtain ⟨damper, blower⟩ := State.setSafe_jumps works empty entered jump
    rw [State.ramps_chooseOffer, show (d.setRemoteMember n m).ramps.damper = _ from damper,
      show (d.setRemoteMember n m).ramps.blower = _ from blower]
    exact ⟨rfl, rfl, rfl, rfl⟩

/-! ## The holds (R99, R101) -/

namespace State

/-- The entry of a key removed and counted as expired: the event before the regime is selected again. -/
def expireDemand (s : State) (n : Fin 8) (source : Fin 16) : State :=
  ({ s with demands := s.demands.remove n source } : State).count .expired

theorem execDemandHoldExpiry_message {s : State} {n : Fin 8} {source : Fin 16} {e : DemandEntry}
    (held : s.demands.find n source = some e) (message : e.hold.isSome = true) :
    exec (.demandHoldExpiry n source) s = .next (s.expireDemand n source).reselect.chooseOffer := by
  show execDemandHoldExpiry n source s = _
  unfold execDemandHoldExpiry
  rw [held]
  exact if_pos message

theorem execDemandHoldExpiry_other {s : State} {n : Fin 8} {source : Fin 16}
    (h : ∀ e, s.demands.find n source = some e → e.hold = none) :
    exec (.demandHoldExpiry n source) s = .next s.chooseOffer := by
  show execDemandHoldExpiry n source s = _
  unfold execDemandHoldExpiry
  split
  · rfl
  · next e held =>
    refine if_neg fun message => ?_
    rw [DemandEntry.isMessage, h e held] at message
    cases message

theorem execSafeHoldExpiry_member {s : State} {n : Fin 8} (h : s.safe.remote[n].isSome = true) :
    exec (.safeHoldExpiry n) s = .next (s.setRemoteMember n none).chooseOffer := if_pos h

theorem execSafeHoldExpiry_none {s : State} {n : Fin 8} (h : s.safe.remote[n] = none) :
    exec (.safeHoldExpiry n) s = .next s.chooseOffer := if_neg (by rw [h]; decide)

end State

/-- Settles O34: each hold by whether there is an entry or a member whose hold can run out. -/
theorem holdsRunOut : Obligations.HoldsRunOut := by
  intro n source s
  refine ⟨?_, ?_⟩
  · by_cases message : ∃ e, s.demands.find n source = some e ∧ e.hold.isSome = true
    · obtain ⟨e, held, hold⟩ := message
      have only : Only State.entryParts s (s.expireDemand n source) := s.setDemandsCount_only _ _
      refine ⟨_, State.execDemandHoldExpiry_message held hold, fun _ _ _ => ⟨?_, ?_, fun inlet station => ?_, ?_⟩,
        fun none => ?_⟩
      · rw [State.demands_reselected, ← DemandList.remove_eq]
        exact (s.setDemandsCount_fields _ _).1
      · rw [State.cell_reselected _ _ (by decide)]
        exact (s.setDemandsCount_fields _ _).2
      · exact State.selected_reselected only (s.listWorks_iff.mpr ⟨inlet, station⟩)
      · exact Changes.reselected only (s.setDemandsCount_notes _ _) (by simp) (by simp)
      · rw [none e held] at hold
        cases hold
    · have none : ∀ e, s.demands.find n source = some e → e.hold = none := fun e held =>
        Option.not_isSome_iff_eq_none.mp fun hold => message ⟨e, held, hold⟩
      exact ⟨_, State.execDemandHoldExpiry_other none, fun e held hold => absurd ⟨e, held, hold⟩ message,
        fun _ => Changes.choice s⟩
  · cases member : s.safe.remote[n].isSome with
    | false =>
      have none : s.safe.remote[n] = none := Option.isNone_iff_eq_none.mp (Option.isSome_eq_false_iff.mp member)
      exact ⟨_, State.execSafeHoldExpiry_none none, nofun, fun _ => Changes.choice s,
        Changes.ends (Only.refl [] s) (Notes.refl _ s)⟩
    | true =>
      let q : SafeSet := { s.safe with remote := s.safe.remote.set n none }
      have before : s.safe.nonempty = true := SafeSet.nonempty_of_remote member
      refine ⟨_, State.execSafeHoldExpiry_member member, fun _ inlet station => ?_, fun none => ?_,
        Changes.ends (s.setSafe_only q) (s.setSafe_notes q)⟩
      · have handed : SafeReasonHanded q s (s.setSafe q).chooseOffer := (s.setSafe_handed q inlet).chooseOffer
        have set := handed.set inlet station
        refine ⟨set, fun empty => handed.left inlet station before (set ▸ empty), fun some => ?_⟩
        have inside : s.setRemoteMember n none = { s with safe := q } :=
          State.setSafe_inside (s.listWorks_iff.mpr ⟨inlet, station⟩) (before.trans (set ▸ some).symm)
        rw [inside]
        exact Changes.ends (s.setSafeSet_only q) (Notes.plain rfl rfl rfl)
      · rw [none] at member
        cases member

end Sys2Proof.Machine
end

section
/-! PROOFS. The formulas of the mix law and the inputs they are formed from (O36). -/

namespace Sys2Proof.Machine

open Sys2Proof

/-! ## The largest of the known values (R16) -/

/-- A fold of `maxKnown` knows nothing exactly when none of its values is known. -/
theorem foldl_maxKnown_eq_none {α : Type} {f : α → Option Nat} {l : List α} {acc : Option Nat} :
    l.foldl (fun acc i => maxKnown acc (f i)) acc = none ↔ acc = none ∧ ∀ i ∈ l, f i = none := by
  induction l generalizing acc with
  | nil => simp
  | cons x xs ih =>
    have step : maxKnown acc (f x) = none ↔ acc = none ∧ f x = none := by
      cases acc <;> cases f x <;> simp [maxKnown]
    rw [List.foldl_cons, ih, step, and_assoc, List.forall_mem_cons]

/-- A fold of `maxKnown` gives the value that is attained and that no known value exceeds. -/
theorem foldl_maxKnown_eq_some {α : Type} {f : α → Option Nat} {l : List α} {acc : Option Nat} {m : Nat} :
    l.foldl (fun acc i => maxKnown acc (f i)) acc = some m ↔
      (acc = some m ∨ ∃ i ∈ l, f i = some m) ∧ (∀ c, acc = some c → c ≤ m) ∧ ∀ i ∈ l, ∀ c, f i = some c → c ≤ m := by
  induction l generalizing acc with
  | nil =>
    simp only [List.foldl_nil, List.not_mem_nil, false_and, exists_false, or_false, false_imp_iff, implies_true, and_true]
    exact ⟨fun h => ⟨h, fun c known => Nat.le_of_eq (Option.some.inj (known.symm.trans h))⟩, And.left⟩
  | cons x xs ih =>
    have attained : (∃ i ∈ x :: xs, f i = some m) ↔ f x = some m ∨ ∃ i ∈ xs, f i = some m := by simp
    rw [List.foldl_cons, ih, attained, List.forall_mem_cons]
    cases acc with
    | none => simp [maxKnown]
    | some a =>
      cases f x with
      | none => simp [maxKnown]
      | some b =>
        simp only [maxKnown, Option.some.injEq, forall_eq', Nat.max_le]
        grind

/-! ## The combined burden (R15, R16) -/

theorem SlotRecord.usable_iff {r : SlotRecord} :
    r.usable = true ↔ r.seeded = true ∧ (r.quality = .good ∨ r.quality = .suspect) := by
  unfold SlotRecord.usable
  cases r.quality <;> simp

theorem homeLocation_eq (r : Role) : homeLocation r = if r = .cabin then .cabin else .outside := by
  cases r <;> rfl

namespace State

theorem slotBurden_eq_some {s : State} {i : Fin 16} {b : Nat} : s.slotBurden i = some b ↔
    s.sequencer.records[i].seeded = true ∧
      (s.sequencer.records[i].quality = .good ∨ s.sequencer.records[i].quality = .suspect) ∧
      s.sequencer.records[i].burden = some b := by
  rw [← and_assoc, ← SlotRecord.usable_iff]
  simp [slotBurden]

/-- A slot counts towards the combined burden with its usable burden, as a pollutant slot at the home location. -/
theorem homeBurden_eq_some {s : State} {i : Fin 16} {b : Nat} : s.homeBurden i = some b ↔
    (s.cfg.slots[i].kind = .pm ∨ s.cfg.slots[i].kind = .no2 ∨ s.cfg.slots[i].kind = .co2) ∧
      s.cfg.slots[i].location = (if s.startup.role = .cabin then .cabin else .outside) ∧
      s.sequencer.records[i].seeded = true ∧
      (s.sequencer.records[i].quality = .good ∨ s.sequencer.records[i].quality = .suspect) ∧
      s.sequencer.records[i].burden = some b := by
  rw [← homeLocation_eq, ← Kind.isPollutant_iff, ← slotBurden_eq_some]
  unfold homeBurden
  cases s.slotBurden i <;> simp [and_assoc]

theorem combinedBurden_eq_none {s : State} : s.combinedBurden = none ↔ ∀ i b, s.homeBurden i ≠ some b := by
  unfold combinedBurden
  rw [foldl_maxKnown_eq_none]
  simp [Option.eq_none_iff_forall_ne_some]

theorem combinedBurden_eq_some {s : State} {b : Nat} : s.combinedBurden = some b ↔
    (∃ i, s.homeBurden i = some b) ∧ ∀ i c, s.homeBurden i = some c → c ≤ b := by
  unfold combinedBurden
  rw [foldl_maxKnown_eq_some]
  simp

end State

/-! ## The cabin peer and its values (R34, R116) -/

theorem PeerEntry.isCabin_iff {e : PeerEntry} :
    e.isCabin = true ↔ ∃ i, e.presence = .present i ∧ i.role = .cabin ∧ i.announced ≠ .conflict := by
  unfold PeerEntry.isCabin
  cases e.presence <;> simp

/-- The first number that qualifies is the lowest. -/
theorem find?_finRange_eq_some {n : Nat} {p : Fin n → Bool} {i : Fin n} :
    (List.finRange n).find? p = some i ↔ p i = true ∧ ∀ j, p j = true → i ≤ j := by
  rw [← Fin.find?_eq_find?_finRange, Fin.find?_eq_some_iff]
  refine and_congr_right fun _ => forall_congr' fun j => ?_
  rw [← Bool.not_eq_true, ← not_imp_not, not_not, not_lt]

namespace State

theorem cabinPeer_eq_none {s : State} : s.cabinPeer = none ↔ ∀ n : Fin 8, ¬ s.peers[n].isCabin = true := by
  simp [cabinPeer]

theorem cabinPeer_eq_some {s : State} {n : Fin 8} :
    s.cabinPeer = some n ↔ s.peers[n].isCabin = true ∧ ∀ m : Fin 8, s.peers[m].isCabin = true → n ≤ m :=
  find?_finRange_eq_some

theorem cabinValues_of_none {s : State} (h : s.cabinPeer = none) :
    s.cabinBurden = none ∧ ∀ k, s.cabinReading k = none := by
  simp [cabinBurden, cabinReading, h]

theorem cabinValues_of_present {s : State} {n : Fin 8} {i : PeerInfo} (h : s.cabinPeer = some n)
    (present : s.peers[n].presence = .present i) :
    s.cabinBurden = i.burden ∧ ∀ k, s.cabinReading k = s.peerValue n k .cabin := by
  unfold cabinBurden cabinReading
  rw [h]
  exact ⟨congrArg (Option.bind · PeerInfo.burden) (Presence.info?_eq_some.mpr present), fun _ => rfl⟩

end State

/-! ## The formulas (R117, R118, R120) -/

/-- The fresh floor at and beyond its two points, and the straight line between them (R117). -/
theorem freshFloor_some {m : MixCfg} (c : Nat) (points : m.co2Low < m.co2High) :
    (c ≤ m.co2Low → freshFloor m (some c) = 0) ∧ (m.co2High ≤ c → freshFloor m (some c) = 1000) ∧
      (m.co2Low < c → c < m.co2High →
        freshFloor m (some c) = (c - m.co2Low) * 1000 / (m.co2High - m.co2Low) ∧ freshFloor m (some c) < 1000) := by
  refine ⟨fun low => if_pos low, fun high => ?_, fun low high => ?_⟩
  · exact (if_neg (by omega)).trans (if_pos high)
  · have line : freshFloor m (some c) = (c - m.co2Low) * 1000 / (m.co2High - m.co2Low) :=
      (if_neg (by omega)).trans (if_neg (by omega))
    refine ⟨line, ?_⟩
    rw [line, Nat.div_lt_iff_lt_mul (by omega)]
    omega

/-- The recirculation wish by the side of the cabin burden the outside burden stands on (R118). -/
theorem recircWish_some (m : MixCfg) (b bc : Nat) :
    (b ≤ bc → recircWish m (some b) bc = 0) ∧
      (bc < b → recircWish m (some b) bc = min 1000 ((b - bc) * 1000 / m.band)) :=
  ⟨fun low => if_pos low, fun high => if_neg (Nat.not_le.mpr high)⟩

/-- Two neighbouring points of the breakpoint table (R120). -/
def IsSegment (t : BreakTable) (a b : Breakpoint) : Prop :=
  (a = t.b0 ∧ b = t.b1) ∨ (a = t.b1 ∧ b = t.b2) ∨ (a = t.b2 ∧ b = t.b3) ∨ (a = t.b3 ∧ b = t.b4)

/-- The points of the breakpoint table ascend from 0 (R114). -/
structure TableAscends (t : BreakTable) : Prop where
  zero : t.b0.r = 0
  first : t.b0.r < t.b1.r
  second : t.b1.r < t.b2.r
  third : t.b2.r < t.b3.r
  fourth : t.b3.r < t.b4.r

/-- The damper code is the line of the segment the fraction lies in, an interior point belonging to the lower one (R120). -/
theorem damperCode_of_segment {t : BreakTable} {a b : Breakpoint} {r : Nat} (ascends : TableAscends t)
    (segment : IsSegment t a b) (start : r = 0 → a = t.b0) (lower : a.r < r ∨ r = 0) (upper : r ≤ b.r) :
    damperCode t r = segmentCode a b r := by
  obtain ⟨zero, first, second, third, fourth⟩ := ascends
  have above (later : t.b0.r < a.r) : a.r < r :=
    lower.resolve_right fun none => Nat.ne_of_gt later (congrArg Breakpoint.r (start none))
  unfold damperCode
  rcases segment with ⟨rfl, rfl⟩ | ⟨rfl, rfl⟩ | ⟨rfl, rfl⟩ | ⟨rfl, rfl⟩
  · rw [if_pos upper]
  · have := above first
    rw [if_neg (by omega), if_pos upper]
  · have := above (by omega)
    rw [if_neg (by omega), if_neg (by omega), if_pos upper]
  · have := above (by omega)
    rw [if_neg (by omega), if_neg (by omega), if_neg (by omega)]

/-- Settles O36: the inputs by what the two selections pick out, each value of a FULL record by its formula. -/
theorem mixLawFormulas : Obligations.MixLawFormulas := by
  intro s m x bc home counts cab
  have counted (i : Fin 16) (b : Nat) : s.homeBurden i = some b ↔ counts i b := State.homeBurden_eq_some
  have cabin (n : Fin 8) : s.peers[n].isCabin = true ↔ cab n := PeerEntry.isCabin_iff
  refine ⟨?_, fun b => ?_, ?_, fun n => ?_, State.cabinValues_of_none, fun _ _ => State.cabinValues_of_present,
    rfl, rfl, rfl, rfl, fun unknown => ?_, fun c known points => ?_, fun unknown => ?_, fun b known => ?_, rfl, rfl, rfl,
    fun a b segment zero first second third fourth start lower upper => ?_⟩
  · simp only [State.combinedBurden_eq_none, ne_eq, counted]
  · simp only [State.combinedBurden_eq_some, counted]
  · simp only [State.cabinPeer_eq_none, cabin]
  · simp only [State.cabinPeer_eq_some, cabin]
  · exact congrArg (freshFloor m) unknown
  · have floor : x.floor = freshFloor m (some c) := congrArg (freshFloor m) known
    rw [floor]
    exact freshFloor_some c points
  · exact congrArg (recircWish m · bc) unknown
  · have wish : x.wish = recircWish m (some b) bc := congrArg (recircWish m · bc) known
    rw [wish]
    exact recircWish_some m b bc
  · exact congrArg some (damperCode_of_segment ⟨zero, first, second, third, fourth⟩ segment start lower upper)

end Sys2Proof.Machine
end

section
/-! PROOFS. The computation of an INLET by its active regime, and what it hands on (O37). -/

namespace Sys2Proof.Machine

open Sys2Proof

/-- What a channel makes of a computed target: it takes it when derived afresh or different from the record's, and an
ordinary one that is the record's leaves the channel as it was (R123). -/
structure TakesComputed (afresh : Bool) (old new : Option Nat) (before after : Channel) : Prop where
  handed : ∀ x, new = some x → (afresh = true ∨ old ≠ some x) → after.target = x
  kept : afresh = false → new = old → after = before

namespace State

theorem takeTarget_target {s : State} (n : RampName) (x : Nat) (inlet : s.startup.role = .inlet) :
    ((s.takeTarget n x).ramps.channel n).target = x := by
  cases n with
  | damper => exact (congrArg Channel.target (s.takeTarget_damper x inlet).1).trans (Channel.take_target _ _ _)
  | blower =>
    rw [s.takeTarget_blower x inlet]
    exact Channel.take_target _ _ _

theorem takeTarget_elsewhere {s : State} (other : s.startup.role ≠ .inlet) (n : RampName) (x : Nat) :
    s.takeTarget n x = s := if_neg other

/-- A target reaches its own channel alone. -/
theorem takeTarget_other (s : State) {m n : RampName} (other : m ≠ n) (x : Nat) :
    (s.takeTarget n x).ramps.channel m = s.ramps.channel m := by
  by_cases inlet : s.startup.role = .inlet
  swap
  · rw [takeTarget_elsewhere inlet]
  cases n with
  | damper =>
    cases m with
    | damper => exact absurd rfl other
    | blower => exact (s.takeTarget_damper x inlet).2
  | blower =>
    cases m with
    | damper =>
      rw [s.takeTarget_blower x inlet]
      rfl
    | blower => exact absurd rfl other

theorem handComputed_other (s : State) {m n : RampName} (other : m ≠ n) (afresh : Bool) (old new : Option Nat) :
    (s.handComputed n afresh old new).ramps.channel m = s.ramps.channel m := by
  unfold handComputed
  split
  · rfl
  · split
    · exact s.takeTarget_other other _
    · rfl

theorem handComputed_takes {s : State} (n : RampName) (afresh : Bool) (old new : Option Nat)
    (inlet : s.startup.role = .inlet) :
    TakesComputed afresh old new (s.ramps.channel n) ((s.handComputed n afresh old new).ramps.channel n) where
  handed x computed differs := by
    have hands : (afresh || decide (old ≠ some x)) = true := by simpa using differs
    rw [computed]
    show ((if afresh || decide (old ≠ some x) then s.takeTarget n x else s).ramps.channel n).target = x
    rw [if_pos hands]
    exact takeTarget_target n x inlet
  kept ordinary same := by
    rw [ordinary, same]
    cases old with
    | none => rfl
    | some x => simp [handComputed]

/-! ## The computation of each regime (R122) -/

theorem computeMix_auto {s : State} (inlet : s.startup.role = .inlet) (running : s.startup.station = .running)
    (auto : s.regime = .auto) (afresh : Bool) : s.computeMix afresh =
      (({ s with mix := s.fullComputation } : State).handComputed .damper afresh s.mix.damper
        s.fullComputation.damper).handComputed .blower afresh s.mix.blower s.fullComputation.blower := by
  unfold computeMix
  rw [if_pos ⟨inlet, running⟩, auto]

theorem computeMix_recirc {s : State} (inlet : s.startup.role = .inlet) (running : s.startup.station = .running)
    (recirc : s.regime = .recirc) (afresh : Bool) : s.computeMix afresh =
      ({ s with mix := s.blowerComputation } : State).handComputed .blower afresh s.mix.blower
        s.blowerComputation.blower := by
  unfold computeMix
  rw [if_pos ⟨inlet, running⟩, recirc]

/-- Outside AUTO and RECIRC nothing is computed. -/
theorem computeMix_otherwise {s : State} (auto : s.regime ≠ .auto) (recirc : s.regime ≠ .recirc) (afresh : Bool) :
    s.computeMix afresh = s := by
  unfold computeMix
  split
  · split
    · exact absurd ‹_› auto
    · exact absurd ‹_› recirc
    all_goals rfl
  · rfl

/-- A FULL computation: the record and, of each channel, the computed target. -/
theorem computeMix_full {s : State} (inlet : s.startup.role = .inlet) (running : s.startup.station = .running)
    (auto : s.regime = .auto) (afresh : Bool) : let t := s.computeMix afresh
    t.mix = s.fullComputation ∧
      TakesComputed afresh s.mix.damper s.fullComputation.damper s.ramps.damper t.ramps.damper ∧
      TakesComputed afresh s.mix.blower s.fullComputation.blower s.ramps.blower t.ramps.blower := by
  let u : State := { s with mix := s.fullComputation }
  let v := u.handComputed .damper afresh s.mix.damper s.fullComputation.damper
  let w := v.handComputed .blower afresh s.mix.blower s.fullComputation.blower
  have first : Only rampParts u v := u.handComputed_only _ _ _ _
  have second : Only rampParts v w := v.handComputed_only _ _ _ _
  have damper : w.ramps.damper = v.ramps.damper := v.handComputed_other (m := .damper) (by decide) _ _ _
  have blower : v.ramps.blower = s.ramps.blower := u.handComputed_other (m := .blower) (by decide) _ _ _
  have ownDamper : TakesComputed afresh s.mix.damper s.fullComputation.damper s.ramps.damper v.ramps.damper :=
    handComputed_takes (s := u) .damper _ _ _ inlet
  have ownBlower : TakesComputed afresh s.mix.blower s.fullComputation.blower v.ramps.blower w.ramps.blower :=
    handComputed_takes (s := v) .blower _ _ _ ((first .role (by decide)).trans inlet)
  rw [computeMix_auto inlet running auto]
  exact ⟨(first.trans second) .mix (by decide), damper ▸ ownDamper, blower ▸ ownBlower⟩

/-- A BLOWER computation: kind, cabin burden and blower target in the record, and the blower's target alone. -/
theorem computeMix_blower {s : State} (inlet : s.startup.role = .inlet) (running : s.startup.station = .running)
    (recirc : s.regime = .recirc) (afresh : Bool) : let t := s.computeMix afresh
    t.mix = s.blowerComputation ∧ t.ramps.damper = s.ramps.damper ∧
      TakesComputed afresh s.mix.blower s.blowerComputation.blower s.ramps.blower t.ramps.blower := by
  let u : State := { s with mix := s.blowerComputation }
  rw [computeMix_recirc inlet running recirc]
  exact ⟨u.handComputed_only _ _ _ _ .mix (by decide), u.handComputed_other (m := .damper) (by decide) _ _ _,
    handComputed_takes (s := u) .blower _ _ _ inlet⟩

end State

/-- Settles O37: the record of the regime's computation, and each target by `TakesComputed`. -/
theorem computationByTheActiveRegime : Obligations.ComputationByTheActiveRegime := by
  intro s afresh t works
  refine ⟨fun ⟨inlet, running⟩ auto => ?_, fun ⟨inlet, running⟩ recirc => ?_,
    fun auto recirc => State.computeMix_otherwise auto recirc afresh, fun idle => if_neg idle,
    Changes.within (s.computeMix_only afresh) (s.computeMix_notes afresh)⟩
  · obtain ⟨mix, damper, blower⟩ := State.computeMix_full inlet running auto afresh
    rw [← mix] at damper blower
    exact ⟨mix, damper.handed, blower.handed, damper.kept, blower.kept⟩
  · obtain ⟨mix, damper, blower⟩ := State.computeMix_blower inlet running recirc afresh
    have target : t.mix.blower = s.blowerComputation.blower := congrArg MixRecord.blower mix
    rw [← target] at blower
    exact ⟨by rw [target]; exact mix, target, damper, blower.handed⟩

end Sys2Proof.Machine
end

section
/-! PROOFS. Every step keeps both channels sound (O60). -/

namespace Sys2Proof.Machine

open Sys2Proof

/-! ## One channel (R128, R129, R132) -/

theorem Channel.take_off {cfg : RampCfg} (off : cfg.mode = .off) (c : Channel) (x : Nat) :
    c.take cfg x = { c.rest with output := x, target := x } := by
  unfold Channel.take
  rw [off]

/-- Outside OFF the target is compared with the output, and a move with its timer running goes on with it. -/
theorem Channel.take_on {cfg : RampCfg} (on : cfg.mode ≠ .off) (c : Channel) (x : Nat) :
    c.take cfg x = if x = c.output then { c.rest with target := x }
      else if c.moving then c.aim x else { c.aim x with timer := some cfg.intervalMs } := by
  unfold Channel.take
  split
  · exact absurd ‹_› on
  all_goals rfl

theorem Channel.aim_length {c : Channel} {x : Nat} (away : x ≠ c.output) : 1 ≤ (c.aim x).length :=
  show 1 ≤ distance c.output x by unfold distance; omega

/-- A channel at rest at its target. -/
theorem Channel.sound_at_rest {c : Channel} (moving : c.moving = false) (timer : c.timer = none)
    (there : c.output = c.target) : c.sound :=
  ⟨iff_of_true moving there, by rw [moving, timer]; rfl⟩

/-- A channel on its way to a target elsewhere. -/
theorem Channel.sound_on_its_way {c : Channel} (moving : c.moving = true) (timer : c.timer.isSome = true)
    (away : c.output ≠ c.target) : c.sound :=
  ⟨iff_of_false (by rw [moving]; decide) away, timer.trans moving.symm⟩

theorem resetChannel_sound : resetChannel.sound := Channel.sound_at_rest rfl rfl rfl

namespace Channel.sound

variable {c : Channel}

/-- A sound IDLE channel is its own state at rest. -/
theorem rest_of_idle (h : c.sound) (idle : c.moving = false) : c.rest = c := by
  have timer : c.timer = none := Option.not_isSome_iff_eq_none.mp (by rw [h.2, idle]; decide)
  cases c
  cases idle
  cases timer
  rfl

theorem take (h : c.sound) (cfg : RampCfg) (x : Nat) : (c.take cfg x).sound := by
  by_cases off : cfg.mode = .off
  · rw [Channel.take_off off]
    exact sound_at_rest rfl rfl rfl
  rw [Channel.take_on off]
  split
  · next there => exact sound_at_rest rfl rfl there.symm
  · next away =>
    split
    · next moving => exact sound_on_its_way rfl (h.2.trans moving) (Ne.symm away)
    · exact sound_on_its_way rfl rfl (Ne.symm away)

theorem step (h : c.moving = true) (cfg : RampCfg) : (c.step cfg).sound := by
  unfold Channel.step
  dsimp only
  split
  · next there => exact sound_at_rest rfl rfl there
  · next away => exact sound_on_its_way h rfl away

theorem jump (c : Channel) (x : Nat) : (c.jump x).sound := sound_at_rest rfl rfl rfl

/-- A timer that runs down runs on. -/
theorem tick (h : c.sound) : c.tick.sound := ⟨h.1, (Option.isSome_map ..).trans h.2⟩

end Channel.sound

/-! ## Updates that leave the channels sound -/

namespace ChannelsSound

variable {s : State}

theorem channel (h : ChannelsSound s) (n : RampName) : (s.ramps.channel n).sound := by
  cases n with
  | damper => exact h.1
  | blower => exact h.2

/-- An update of other parts. -/
theorem of_only {ps : List Part} {t : State} (h : ChannelsSound s) (only : Only ps s t)
    (damper : Part.damper ∉ ps := by decide) (blower : Part.blower ∉ ps := by decide) : ChannelsSound t := by
  have damper : t.ramps.damper = s.ramps.damper := only .damper damper
  have blower : t.ramps.blower = s.ramps.blower := only .blower blower
  unfold ChannelsSound
  rw [damper, blower]
  exact h

theorem putChannel (h : ChannelsSound s) (n : RampName) {d : Channel} (sound : d.sound) :
    ChannelsSound (s.putChannel n d) := by
  cases n with
  | damper =>
    obtain ⟨put, kept⟩ := s.putChannel_damper d
    unfold ChannelsSound
    rw [put, kept]
    exact ⟨sound, h.2⟩
  | blower => exact ⟨h.1, sound⟩

/-! ## Targets (R92, R104, R123) -/

theorem takeTarget (h : ChannelsSound s) (n : RampName) (x : Nat) : ChannelsSound (s.takeTarget n x) := by
  unfold State.takeTarget
  split
  · exact h.putChannel n ((h.channel n).take _ x)
  · exact h

theorem takeTargets (h : ChannelsSound s) (x y : Nat) : ChannelsSound (s.takeTargets x y) :=
  (h.takeTarget .damper x).takeTarget .blower y

theorem applySafePosition (h : ChannelsSound s) : ChannelsSound s.applySafePosition := by
  unfold State.applySafePosition
  dsimp only
  split
  · exact h
  · split
    · exact (h.putChannel .damper (.jump _ _)).putChannel .blower (.jump _ _)
    · exact h.takeTargets _ _

theorem handComputed (h : ChannelsSound s) (n : RampName) (afresh : Bool) (old new : Option Nat) :
    ChannelsSound (s.handComputed n afresh old new) := by
  unfold State.handComputed
  split
  · exact h
  · split
    · exact h.takeTarget n _
    · exact h

theorem computeMix (h : ChannelsSound s) (afresh : Bool) : ChannelsSound (s.computeMix afresh) := by
  have recorded (m : MixRecord) : ChannelsSound { s with mix := m } := h
  unfold State.computeMix
  split
  · split
    · exact ((recorded _).handComputed .damper _ _ _).handComputed .blower _ _ _
    · exact (recorded _).handComputed .blower _ _ _
    all_goals exact h
  · exact h

theorem handTargets (h : ChannelsSound s) : ChannelsSound s.handTargets := by
  unfold State.handTargets
  split
  · exact h.computeMix true
  · exact (h.takeTarget .damper _).computeMix true
  all_goals exact h.takeTargets _ _

/-! ## The regime and the set (R102, R104) -/

theorem setRegime (h : ChannelsSound s) (r : Regime) : ChannelsSound { s with regime := r } := h

theorem reselect (h : ChannelsSound s) : ChannelsSound s.reselect := by
  unfold State.reselect
  dsimp only
  split
  · exact h
  · split
    · exact (h.setRegime _).applySafePosition
    · exact (h.setRegime _).handTargets

theorem rederive (h : ChannelsSound s) : ChannelsSound s.rederive := by
  unfold State.rederive
  split
  · exact h
  · exact (h.setRegime _).handTargets

theorem setSafe (h : ChannelsSound s) (q : SafeSet) : ChannelsSound (s.setSafe q) := by
  unfold State.setSafe
  dsimp only
  split
  · exact h
  · split
    · exact ChannelsSound.applySafePosition h
    · exact ChannelsSound.rederive h
    · exact h

/-! ## Resets and time -/

theorem coldReset (s : State) : ChannelsSound s.coldReset := ⟨resetChannel_sound, resetChannel_sound⟩

theorem linkReset (h : ChannelsSound s) (f : Frame) :
    ChannelsSound (((s.linkCleared f).clearFlag .linkPassive).clearFlag .linkWithdrawn) :=
  have cleared : ChannelsSound (s.linkCleared f) := h.of_only (s.linkCleared_only f)
  (cleared.of_only (State.writeFlag_only _ _ _)).of_only (State.writeFlag_only _ _ _)

theorem tick (h : ChannelsSound s) : ChannelsSound s.tick := ⟨h.1.tick, h.2.tick⟩

end ChannelsSound

/-! ## The step -/

theorem Act.keeps_channelsSound {s t : State} (a : Act s t) (h : ChannelsSound s) : ChannelsSound t := by
  induction a with
  | refl => exact h
  | trans _ _ first second => exact second (first h)
  | quiet only => exact h.of_only only
  | post s box f => exact h.of_only (s.post_only box f)
  | answer s held => exact h.of_only (s.hold_only .answer held)
  | dropRemote s => exact h.of_only s.dropRemote_only
  | reselect => exact h.reselect
  | rederive => exact h.rederive
  | setSafe s q => exact h.setSafe q
  | computeMix s afresh => exact h.computeMix afresh
  | flag | list | peers | rule | tally => exact h

theorem Does.keeps_channelsSound {s t : State} (d : Does s t) (h : ChannelsSound s) : ChannelsSound t := by
  induction d with
  | act a => exact a.keeps_channelsSound h
  | trans _ _ first second => exact second (first h)
  | choose s => exact h.of_only s.chooseOffer_only
  | powerOn s => exact .coldReset s
  | fullReset s => exact .coldReset s
  | safeCodes s => exact (h.setRegime .safe).takeTargets _ _
  | steps s n moving => exact h.putChannel n (.step moving _)
  | scoreSent s => exact h.of_only s.scoreSent_only
  | scoreFailed s => exact h.of_only s.scoreFailed_only
  | linkReset s f => exact h.linkReset f
  | conflict | joins | runs => exact h
  | dequeue | pins | removes | keeps | abandons | score | withdrawalEnds | queue | mark => exact h

/-- Settles O60: whatever a step does (`Does`) puts into a channel only a target taken, a step of a move, a jump or the
reset state, and each of them is sound. -/
theorem everyStepKeepsTheChannelsSound : Obligations.EveryStepKeepsTheChannelsSound := by
  intro s t h run
  rcases step_cases run with rfl | ⟨c, rest, run⟩
  · exact h.tick
  · exact (exec_does run).keeps_channelsSound h

end Sys2Proof.Machine
end

section
/-! PROOFS. A target handed to a channel, and what the damper hands on (O38). -/

namespace Sys2Proof.Machine

open Sys2Proof

/-! ## What a change of the damper hands on (R134, R135, R136) -/

namespace State

/-- The travel of the damper's output from `c` to `d` counted. -/
def travelled (s : State) (c d : Channel) : State :=
  if c.output = d.output then s else s.bump .damperTravel (distance c.output d.output)

theorem damperChanged_eq (s : State) (c d : Channel) : s.damperChanged c d =
    if d.moving then (if c.moving then s.travelled c d else (s.travelled c d).stopSettling)
    else if c.moving then (s.travelled c d).startSettling
    else if c.output = d.output then s.travelled c d
    else (s.travelled c d).startSettling.clearFlag .stall := rfl

theorem travelled_ramps (s : State) (c d : Channel) : (s.travelled c d).ramps = s.ramps := by
  unfold travelled
  split
  · rfl
  · exact bump_ramps _ _ _

theorem travelled_stall (s : State) (c d : Channel) : (s.travelled c d).flag .stall = s.flag .stall := by
  unfold travelled
  split
  · rfl
  · exact flag_bump_ne _ _ _ _ (by decide)

theorem cell_travelled (s : State) (c d : Channel) : (s.travelled c d).cell .damperTravel =
    if c.output = d.output then s.cell .damperTravel
    else (s.cell .damperTravel).add (distance c.output d.output) := by
  unfold travelled
  split
  · rfl
  · exact (s.cell_bump _ _ _).trans (if_pos rfl)

theorem flag_clearFlag_same (s : State) (f : Flag) : (s.clearFlag f).flag f = false :=
  (s.flag_writeFlag f f false).trans (if_pos rfl)

end State

/-- What the change of the damper from `c` to `d` hands on between two states: its travel, and settle time and STALL as
it becomes MOVING, becomes IDLE, changes its output in IDLE, or does none of these. -/
structure DamperHanded (c d : Channel) (s t : State) : Prop where
  travel : t.cell .damperTravel = if c.output = d.output then s.cell .damperTravel
    else (s.cell .damperTravel).add (distance c.output d.output)
  starts : c.moving = false → d.moving = true →
    t.ramps.settle = none ∧ t.ramps.settled = false ∧ t.flag .stall = false
  stops : c.moving = true → d.moving = false →
    (t.ramps.settle = some 2000 ∧ t.ramps.settled = false) ∧ t.flag .stall = s.flag .stall
  jumps : c.moving = false → d.moving = false → d.output ≠ c.output →
    (t.ramps.settle = some 2000 ∧ t.ramps.settled = false) ∧ t.flag .stall = false
  goesOn : (c.moving = true ∧ d.moving = true) ∨ (c.moving = false ∧ d.moving = false ∧ d.output = c.output) →
    t.ramps.settle = s.ramps.settle ∧ t.ramps.settled = s.ramps.settled ∧ t.flag .stall = s.flag .stall

namespace State

theorem damperChanged_handed (s : State) (c d : Channel) : DamperHanded c d s (s.damperChanged c d) := by
  have ramps := s.travelled_ramps c d
  have stall := s.travelled_stall c d
  have travel : (s.damperChanged c d).cell .damperTravel = (s.travelled c d).cell .damperTravel := by
    rw [damperChanged_eq]
    split_ifs <;> rfl
  refine ⟨travel.trans (s.cell_travelled c d), fun idle moving => ?_, fun moving idle => ?_,
    fun idle still away => ?_, fun same => ?_⟩
  all_goals rw [damperChanged_eq]
  · rw [if_pos moving, if_neg (by simp [idle])]
    exact ⟨rfl, rfl, flag_clearFlag_same _ _⟩
  · rw [if_neg (by simp [idle]), if_pos moving]
    exact ⟨⟨rfl, rfl⟩, stall⟩
  · rw [if_neg (by simp [still]), if_neg (by simp [idle]), if_neg away.symm]
    exact ⟨⟨rfl, rfl⟩, flag_clearFlag_same _ _⟩
  · rw [← ramps]
    rcases same with ⟨before, after⟩ | ⟨before, after, output⟩
    · rw [if_pos after, if_pos before]
      exact ⟨rfl, rfl, stall⟩
    · rw [if_neg (by simp [after]), if_neg (by simp [before]), if_pos output.symm]
      exact ⟨rfl, rfl, stall⟩

/-- The damper's new state leaves the blower alone. -/
theorem putDamper_only (s : State) (d : Channel) :
    Only [.damper, .settle, .counters, .flagBits, .alert] s (s.putChannel .damper d) := by
  intro p outside
  by_cases blower : p = .blower
  · subst blower
    exact (s.putChannel_damper d).2
  · exact s.putChannel_only .damper d p (by simp_all)

theorem putDamper_handed (s : State) (d : Channel) : DamperHanded s.ramps.damper d s (s.putChannel .damper d) := by
  obtain ⟨travel, starts, stops, jumps, goesOn⟩ :=
    damperChanged_handed { s with ramps := { s.ramps with damper := d } } s.ramps.damper d
  exact ⟨travel, starts, stops, jumps, goesOn⟩

theorem takeTarget_inlet {s : State} (inlet : s.startup.role = .inlet) (n : RampName) (x : Nat) :
    s.takeTarget n x = s.putChannel n ((s.ramps.channel n).take (rampCfg s.cfg n) x) := if_pos inlet

end State

/-! ## A target by mode and state (R128) -/

namespace Channel.sound

variable {c : Channel} {cfg : RampCfg}

/-- The target that an IDLE channel stands at leaves it as it was, in every mode. -/
theorem take_here (h : c.sound) (idle : c.moving = false) : c.take cfg c.output = c := by
  have kept : { c.rest with target := c.output } = c := by
    rw [h.rest_of_idle idle, h.1.mp idle]
  by_cases off : cfg.mode = .off
  · rw [Channel.take_off off]
    exact kept
  · rw [Channel.take_on off, if_pos rfl]
    exact kept

end Channel.sound

namespace Channel

variable {c : Channel} {cfg : RampCfg} {x : Nat}

theorem take_output (on : cfg.mode ≠ .off) : (c.take cfg x).output = c.output := by
  rw [take_on on]
  split_ifs <;> rfl

/-- A target elsewhere starts a move, or retargets one with its timer running on. -/
theorem take_away (on : cfg.mode ≠ .off) (away : x ≠ c.output) : let u := c.take cfg x
    u.moving = true ∧ u.origin = c.output ∧ u.length = (c.output - x) + (x - c.output) ∧ 1 ≤ u.length ∧
      (c.moving = false → u.timer = some cfg.intervalMs) ∧ (c.moving = true → u.timer = c.timer) := by
  rw [take_on on, if_neg away]
  cases moving : c.moving with
  | false => exact ⟨rfl, rfl, rfl, aim_length away, fun _ => rfl, nofun⟩
  | true => exact ⟨rfl, rfl, rfl, aim_length away, nofun, fun _ => rfl⟩

end Channel

/-- Settles O38: the table of `take_off` and `take_on`, and of the damper what `DamperHanded` lists. -/
theorem targetIsTakenByModeAndState : Obligations.TargetIsTakenByModeAndState := by
  refine ⟨fun cfg c x h => ?_, fun s x inlet => ?_, fun s x inlet => s.takeTarget_blower x inlet,
    fun s n x other => s.takeTarget_elsewhere other n x⟩
  · have here (idle : c.moving = false) (there : x = c.output) : c.take cfg x = c := by
      rw [there]
      exact h.take_here idle
    refine ⟨Channel.take_target cfg c x, h.take cfg x, fun off => ?_, fun on => ?_⟩
    · have taken := Channel.take_off off c x
      exact ⟨congrArg Channel.output taken, congrArg Channel.moving taken, here⟩
    · refine ⟨Channel.take_output on, here, fun _ there => ?_, fun away => Channel.take_away on away⟩
      rw [Channel.take_on on, if_pos there]
      exact ⟨rfl, rfl⟩
  · have only := s.putDamper_only (s.ramps.damper.take s.cfg.damper x)
    obtain ⟨put, kept⟩ := s.putChannel_damper (s.ramps.damper.take s.cfg.damper x)
    obtain ⟨travel, starts, stops, jumps, goesOn⟩ := s.putDamper_handed (s.ramps.damper.take s.cfg.damper x)
    rw [State.takeTarget_inlet inlet]
    dsimp only [RampUnit.channel, rampCfg]
    rw [put]
    exact ⟨rfl, kept, fun away => travel.trans (if_neg (Ne.symm away)), fun there => travel.trans (if_pos there.symm),
      starts, stops, jumps, goesOn, Changes.within only (s.putChannel_notes .damper _)⟩

end Sys2Proof.Machine
end

section
/-! PROOFS. The step of a MOVING channel, the settle time and the stall check (O39). -/

namespace Sys2Proof.Machine

open Sys2Proof

/-! ## One step of a channel (R129, R130) -/

theorem easeMultiplier_eq (k : Nat) : easeMultiplier k = [1, 2, 3, 4, 4, 3, 2, 1].getD k 1 := by
  match k with
  | 0 | 1 | 2 | 3 | 4 | 5 | 6 | 7 => rfl
  | _ + 8 => rfl

namespace Channel

/-- The size of a step: the even one in LINEAR, and in EASED that of the phase, from the distance covered. -/
theorem stepSize_eq {cfg : RampCfg} (on : cfg.mode ≠ .off) (c : Channel) : c.stepSize cfg =
    if cfg.mode = .linear then cfg.step
    else max 1 (cfg.step * [1, 2, 3, 4, 4, 3, 2, 1].getD
      (min 7 (8 * ((c.output - c.origin) + (c.origin - c.output)) / c.length)) 1 / 4) := by
  unfold stepSize
  rw [easeMultiplier_eq]
  cases mode : cfg.mode with
  | off => exact absurd mode on
  | linear => rfl
  | eased => rfl

theorem toward_of_le {c : Channel} (up : c.output ≤ c.target) (n : Nat) :
    c.toward n = min c.target (c.output + n) := if_pos up

theorem toward_of_lt {c : Channel} (down : c.target < c.output) (n : Nat) :
    c.toward n = max c.target (c.output - n) := if_neg (Nat.not_le.mpr down)

/-- A step at whose end the target is reached, and one that ends short of it. -/
theorem step_eq (cfg : RampCfg) (c : Channel) : c.step cfg =
    if c.toward (c.stepSize cfg) = c.target then ({ c with output := c.toward (c.stepSize cfg) } : Channel).rest
    else { c with output := c.toward (c.stepSize cfg), timer := some cfg.intervalMs } := rfl

theorem step_output (cfg : RampCfg) (c : Channel) : (c.step cfg).output = c.toward (c.stepSize cfg) := by
  rw [step_eq]
  split <;> rfl

theorem step_move (cfg : RampCfg) (c : Channel) :
    (c.step cfg).origin = c.origin ∧ (c.step cfg).length = c.length := by
  rw [step_eq]
  split <;> exact ⟨rfl, rfl⟩

theorem step_arrives {cfg : RampCfg} {c : Channel} (there : (c.step cfg).output = c.target) :
    (c.step cfg).moving = false ∧ (c.step cfg).timer = none := by
  rw [step_output] at there
  rw [step_eq, if_pos there]
  exact ⟨rfl, rfl⟩

theorem step_goesOn {cfg : RampCfg} {c : Channel} (moving : c.moving = true)
    (short : (c.step cfg).output ≠ c.target) :
    (c.step cfg).moving = true ∧ (c.step cfg).timer = some cfg.intervalMs := by
  rw [step_output] at short
  rw [step_eq, if_neg short]
  exact ⟨moving, rfl⟩

end Channel

/-! ## The events -/

/-- A note that is the same can be struck from the list of what may change. -/
theorem Notes.strike {ns : List Note} {n : Note} {s t : State} (h : Notes ns s t) (same : n.same s t) :
    Notes (ns.filter (· ≠ n)) s t := by
  intro m outside
  by_cases struck : m = n
  · exact struck ▸ same
  · exact h m fun listed => outside (List.mem_filter.mpr ⟨listed, decide_eq_true struck⟩)

namespace State

theorem putChannel_same (s : State) (n : RampName) (d : Channel) : (s.putChannel n d).ramps.channel n = d := by
  cases n with
  | damper => exact (s.putChannel_damper d).1
  | blower => rfl

theorem putBlower_only (s : State) (d : Channel) : Only [.blower] s (s.putChannel .blower d) := by
  intro p outside
  cases p <;> first | rfl | exact ⟨rfl, rfl⟩ | exact ⟨rfl, rfl, rfl⟩ | exact absurd (by decide) outside

theorem execIntervalTimerExpiry_moving {s : State} {n : RampName} (moving : (s.ramps.channel n).moving = true)
    (timer : (s.ramps.channel n).timer.isSome = true) : exec (.intervalTimerExpiry n) s =
      .next (s.putChannel n ((s.ramps.channel n).step (rampCfg s.cfg n))).chooseOffer := if_pos ⟨moving, timer⟩

theorem execIntervalTimerExpiry_idle {s : State} {n : RampName} (idle : (s.ramps.channel n).moving = false) :
    exec (.intervalTimerExpiry n) s = .next s.chooseOffer := if_neg (by simp [idle])

/-- The damper once its settle time has run. -/
def becomesSettled (s : State) : State := { s with ramps := { s.ramps with settle := none, settled := true } }

theorem becomesSettled_only (s : State) : Only [.settle] s s.becomesSettled := by
  intro p outside
  cases p <;> first | rfl | exact ⟨rfl, rfl⟩ | exact ⟨rfl, rfl, rfl⟩ | exact absurd (by decide) outside

theorem execSettleTimerExpiry_running {s : State} (runs : s.ramps.settle.isSome = true) :
    exec .settleTimerExpiry s = .next s.becomesSettled.stallCheck.chooseOffer := if_pos runs

/-- The check writes STALL alone. -/
theorem stallCheck_ramps (s : State) : s.stallCheck.ramps = s.ramps := by
  unfold stallCheck
  split
  · split
    · rfl
    · dsimp only
      split <;> rfl
  · rfl

/-- On a settled, IDLE damper STALL follows the difference between a GOOD feedback and the output (R135). -/
theorem stallCheck_checks {s : State} {i : Fin 16} (inlet : s.startup.role = .inlet) (settled : s.ramps.settled = true)
    (idle : s.ramps.damper.moving = false) (slot : s.cfg.feedbackSlot = some i)
    (good : s.sequencer.records[i].quality = .good) : s.stallCheck.flag .stall =
      decide (s.cfg.stallTolerance < distance s.sequencer.records[i].value s.ramps.damper.output) := by
  have checked : s.stallCheck = s.writeFlag .stall
      (decide (s.cfg.stallTolerance < distance s.sequencer.records[i].value s.ramps.damper.output)) := by
    unfold stallCheck
    rw [if_pos ⟨inlet, settled, idle⟩, slot]
    exact if_pos good
  rw [checked, flag_writeFlag, if_pos rfl]

/-- Where one of the conditions of the check does not hold, nothing is checked (R136). -/
theorem stallCheck_unmade {s : State} (h : s.startup.role ≠ .inlet ∨ s.ramps.damper.moving = true ∨
    s.cfg.feedbackSlot = none ∨ ∃ i, s.cfg.feedbackSlot = some i ∧ s.sequencer.records[i].quality ≠ .good) :
    s.stallCheck = s := by
  unfold stallCheck
  split
  · next works =>
    obtain ⟨inlet, -, idle⟩ := works
    rcases h with other | moving | none | ⟨i, slot, bad⟩
    · exact absurd inlet other
    · exact absurd (idle.symm.trans moving) (by decide)
    · rw [none]
    · rw [slot]
      exact if_neg bad
  · rfl

end State

/-- Settles O39: one step by `step_output`, `step_arrives` and `step_goesOn`, of the damper what `DamperHanded` lists;
the settle time by whether the check has its conditions. -/
theorem intervalAndSettleTimersExpire : Obligations.IntervalAndSettleTimersExpire := by
  refine ⟨?_, fun s => ⟨fun n idle => ?idle, fun runs => ?_⟩⟩
  case idle => exact ⟨_, State.execIntervalTimerExpiry_idle idle, Changes.choice s⟩
  · intro n s c cfg covered size moving timer on
    have output : (c.step cfg).output = c.toward size :=
      (Channel.step_output cfg c).trans (congrArg c.toward (Channel.stepSize_eq on c))
    obtain ⟨origin, length⟩ := Channel.step_move cfg c
    refine ⟨_, State.execIntervalTimerExpiry_moving moving timer, ?_⟩
    rw [State.ramps_chooseOffer, State.putChannel_same, State.cell_chooseOffer, State.flag_chooseOffer]
    refine ⟨fun up => output.trans (Channel.toward_of_le up size),
      fun down => output.trans (Channel.toward_of_lt down size), Channel.step_target cfg c, origin, length,
      Channel.step_arrives, Channel.step_goesOn moving, ?_, ?_⟩
    · rintro rfl
      obtain ⟨travel, -, stops, -, goesOn⟩ := s.putDamper_handed (c.step cfg)
      have stall : (s.putChannel .damper (c.step cfg)).flag .stall = s.flag .stall := by
        cases after : (c.step cfg).moving with
        | false => exact (stops moving after).2
        | true => exact (goesOn (.inl ⟨moving, after⟩)).2.2
      have notes := (s.putChannel_notes .damper (c.step cfg)).strike (n := .flag .stall) stall
      refine ⟨(s.putChannel_damper _).2, fun away => travel.trans (if_neg (Ne.symm away)),
        fun idle => (stops moving idle).1, fun after => ?_, stall, Changes.ends (s.putDamper_only _) notes⟩
      obtain ⟨settle, settled, -⟩ := goesOn (.inl ⟨moving, after⟩)
      exact ⟨settle, settled⟩
    · rintro rfl
      exact Changes.ends (s.putBlower_only _) (Notes.plain rfl rfl rfl)
  · refine ⟨_, State.execSettleTimerExpiry_running runs, ?_⟩
    rw [State.ramps_chooseOffer, State.stallCheck_ramps, State.flag_chooseOffer]
    refine ⟨rfl, fun i inlet idle slot good => ?_, fun unchecked => ?_, ?_⟩
    · exact State.stallCheck_checks (s := s.becomesSettled) inlet rfl idle slot good
    · have unmade : s.becomesSettled.stallCheck = s.becomesSettled := State.stallCheck_unmade unchecked
      exact congrArg (fun t => t.flag .stall) unmade
    · have only : Only [.settle, .flagBits, .alert] s s.becomesSettled.stallCheck :=
        s.becomesSettled_only.seq s.becomesSettled.stallCheck_only (by decide) (by decide)
      have notes : Notes [.flag .stall] s s.becomesSettled := Notes.plain rfl rfl rfl
      exact Changes.ends only (notes.trans s.becomesSettled.stallCheck_notes)

end Sys2Proof.Machine
end

section
/-! PROOFS. The accounting second by role (O40). -/

namespace Sys2Proof.Machine

open Sys2Proof

/-! ## What the accounting unit reads is not what it counts -/

namespace State

/-- The state with other counters and flags. -/
def withCounts (s : State) (counters : Vector CounterCell 62) (flags : FlagUnit) : State :=
  { s with accounting := { s.accounting with counters := counters }, flags := flags }

/-- The second state differs from the first in counters and flags alone. -/
def Counted (s t : State) : Prop := ∃ counters flags, t = s.withCounts counters flags

theorem bump_counted (s : State) (c : Counter) (n : Nat) : s.Counted (s.bump c n) := by
  unfold bump
  dsimp only
  split
  · exact ⟨_, _, rfl⟩
  · exact ⟨_, _, rfl⟩

namespace Counted

variable {s t u : State}

theorem trans (h : s.Counted t) (k : t.Counted u) : s.Counted u := by
  obtain ⟨_, _, rfl⟩ := h
  obtain ⟨_, _, rfl⟩ := k
  exact ⟨_, _, rfl⟩

theorem exposureBurden (h : s.Counted t) (g : Exposure) : t.exposureBurden g = s.exposureBurden g := by
  obtain ⟨_, _, rfl⟩ := h
  rfl

theorem outsidePm (h : s.Counted t) : t.outsidePm = s.outsidePm := by
  obtain ⟨_, _, rfl⟩ := h
  rfl

end Counted

theorem exposureSecond_counted (s : State) (g : Exposure) : s.Counted (s.exposureSecond g) := by
  unfold exposureSecond
  split
  · exact s.bump_counted _ 1
  · exact (s.bump_counted _ 1).trans (bump_counted _ _ _)

end State

/-! ## One second of the exposure groups (R143) -/

/-- A counter's cell after one second of an exposure group whose slot has this burden. -/
def exposedCell (g : Exposure) (burden : Option Nat) (c : Counter) (x : CounterCell) : CounterCell :=
  match burden with
  | none => if .bin g 5 = c then x.add 1 else x
  | some b => if .dose g = c then x.add b else if .bin g (burdenBin b) = c then x.add 1 else x

/-- A group's second leaves every counter that is not the group's. -/
theorem exposedCell_outside {g : Exposure} {c : Counter} (bin : ∀ k, .bin g k ≠ c) (dose : .dose g ≠ c)
    (burden : Option Nat) (x : CounterCell) : exposedCell g burden c x = x := by
  cases burden with
  | none => exact if_neg (bin 5)
  | some b => exact (if_neg dose).trans (if_neg (bin _))

theorem exposedCell_unknown_bin (g : Exposure) (k : Fin 6) (x : CounterCell) :
    exposedCell g none (.bin g k) x = if k = 5 then x.add 1 else x := by
  simp [exposedCell, eq_comm]

theorem exposedCell_known_bin (g : Exposure) (b : Nat) (k : Fin 6) (x : CounterCell) :
    exposedCell g (some b) (.bin g k) x = if k = burdenBin b then x.add 1 else x := by
  simp [exposedCell, eq_comm]

theorem exposedCell_unknown_dose (g : Exposure) (x : CounterCell) : exposedCell g none (.dose g) x = x := by
  simp [exposedCell]

theorem exposedCell_known_dose (g : Exposure) (b : Nat) (x : CounterCell) :
    exposedCell g (some b) (.dose g) x = x.add b := if_pos rfl

namespace State

theorem cell_exposureSecond (s : State) (g : Exposure) (c : Counter) :
    (s.exposureSecond g).cell c = exposedCell g (s.exposureBurden g) c (s.cell c) := by
  unfold exposureSecond
  cases s.exposureBurden g with
  | none =>
    refine (s.cell_count _ c).trans (ite_congr rfl ?_ fun _ => rfl)
    rintro rfl
    rfl
  | some b =>
    have binned (d : Counter) := s.cell_count (.bin g (burdenBin b)) d
    have undosed := (binned (.dose g)).trans (if_neg nofun)
    refine (cell_bump _ _ c b).trans (ite_congr rfl ?_ fun _ => (binned c).trans (ite_congr rfl ?_ fun _ => rfl))
    · rintro rfl
      exact congrArg (·.add b) undosed
    · rintro rfl
      rfl

/-! ## The second of a CABIN (R143, R144) -/

/-- The three exposure groups take their second, one after the other. -/
def exposureSeconds (s : State) : State := ((s.exposureSecond .pm).exposureSecond .no2).exposureSecond .co2

/-- Each group counts with the burden that stood before the second, in its own counters alone. -/
theorem cell_exposureSeconds (s : State) (c : Counter) : s.exposureSeconds.cell c =
    exposedCell .co2 (s.exposureBurden .co2) c (exposedCell .no2 (s.exposureBurden .no2) c
      (exposedCell .pm (s.exposureBurden .pm) c (s.cell c))) := by
  rw [exposureSeconds, cell_exposureSecond, cell_exposureSecond, cell_exposureSecond,
    ((s.exposureSecond_counted .pm).trans (exposureSecond_counted _ .no2)).exposureBurden,
    (s.exposureSecond_counted .pm).exposureBurden]

theorem cell_exposureSeconds_own (s : State) {g : Exposure} {c : Counter} (own : c = .dose g ∨ ∃ k, c = .bin g k) :
    s.exposureSeconds.cell c = exposedCell g (s.exposureBurden g) c (s.cell c) := by
  have outside {h : Exposure} (other : h ≠ g) : exposedCell h (s.exposureBurden h) c = id :=
    funext <| exposedCell_outside (by rcases own with rfl | ⟨k, rfl⟩ <;> simp [other])
      (by rcases own with rfl | ⟨k, rfl⟩ <;> simp [other]) _
  rw [cell_exposureSeconds]
  cases g <;> simp [outside]

theorem cell_exposureSeconds_door (s : State) :
    s.exposureSeconds.cell .doorOpenSeconds = s.cell .doorOpenSeconds := by
  simp [cell_exposureSeconds, exposedCell_outside]

theorem cabinSecond_eq (s : State) : s.cabinSecond =
    if s.anyDoorOpen then s.exposureSeconds.count .doorOpenSeconds else s.exposureSeconds := rfl

theorem cell_cabinSecond_own (s : State) {g : Exposure} {c : Counter} (own : c = .dose g ∨ ∃ k, c = .bin g k) :
    s.cabinSecond.cell c = exposedCell g (s.exposureBurden g) c (s.cell c) := by
  have undoored : Counter.doorOpenSeconds ≠ c := by rcases own with rfl | ⟨k, rfl⟩ <;> nofun
  rw [cabinSecond_eq, ← s.cell_exposureSeconds_own own]
  split
  · exact (cell_count _ _ c).trans (if_neg undoored)
  · rfl

/-- With no usable burden the second goes to UNKNOWN, and the dose stays. -/
theorem cabinSecond_unknown {s : State} {g : Exposure} (unknown : s.exposureBurden g = none) :
    s.cabinSecond.cell (.bin g 5) = (s.cell (.bin g 5)).add 1 ∧
      s.cabinSecond.cell (.dose g) = s.cell (.dose g) ∧
      ∀ k : Fin 6, k ≠ 5 → s.cabinSecond.cell (.bin g k) = s.cell (.bin g k) := by
  have bin (k : Fin 6) := s.cell_cabinSecond_own (g := g) (.inr ⟨k, rfl⟩)
  have dose := s.cell_cabinSecond_own (g := g) (.inl rfl)
  simp only [unknown, exposedCell_unknown_bin, exposedCell_unknown_dose] at bin dose
  exact ⟨(bin 5).trans (if_pos rfl), dose, fun k other => (bin k).trans (if_neg other)⟩

/-- A usable burden goes to its bin with one second, and to the dose with its value. -/
theorem cabinSecond_known {s : State} {g : Exposure} {b : Nat} (known : s.exposureBurden g = some b) :
    s.cabinSecond.cell (.bin g (burdenBin b)) = (s.cell (.bin g (burdenBin b))).add 1 ∧
      s.cabinSecond.cell (.dose g) = (s.cell (.dose g)).add b ∧
      ∀ k : Fin 6, k ≠ burdenBin b → s.cabinSecond.cell (.bin g k) = s.cell (.bin g k) := by
  have bin (k : Fin 6) := s.cell_cabinSecond_own (g := g) (.inr ⟨k, rfl⟩)
  have dose := s.cell_cabinSecond_own (g := g) (.inl rfl)
  simp only [known, exposedCell_known_bin, exposedCell_known_dose] at bin dose
  exact ⟨(bin _).trans (if_pos rfl), dose, fun k other => (bin k).trans (if_neg other)⟩

theorem cell_cabinSecond_door (s : State) : s.cabinSecond.cell .doorOpenSeconds =
    if s.anyDoorOpen then (s.cell .doorOpenSeconds).add 1 else s.cell .doorOpenSeconds := by
  rw [cabinSecond_eq, ← s.cell_exposureSeconds_door]
  split
  · exact (cell_count _ _ _).trans (if_pos rfl)
  · rfl

end State

/-! ## The second of an INLET (R145, R147, R148) -/

/-- One filter load second with the outside PM value `co`: the division's remainder is carried, whole milligrams leave
the accumulator, the mg count stops at its largest value, and FILTER_WORN is evaluated where the mg count changes. -/
structure FilterLoaded (co : Nat) (s t : State) : Prop where
  carry : t.accounting.carry = s.filterProduct co % 1000000
  ng : t.accounting.ngAccumulator = (s.accounting.ngAccumulator + s.filterProduct co / 1000000) % 1000000
  mg : t.accounting.mgCount = min 4294967295
    (s.accounting.mgCount + (s.accounting.ngAccumulator + s.filterProduct co / 1000000) / 1000000)
  kept : t.accounting.mgCount = s.accounting.mgCount → t.flag .filterWorn = s.flag .filterWorn
  evaluated : t.accounting.mgCount ≠ s.accounting.mgCount →
    t.flag .filterWorn = decide (s.cfg.capacityMg ≤ t.accounting.mgCount)

/-- An increment within the same event is not seen by the filter load. -/
theorem FilterLoaded.of_counted {co : Nat} {s t u : State} (h : FilterLoaded co t u) (counted : s.Counted t)
    (worn : t.flag .filterWorn = s.flag .filterWorn) : FilterLoaded co s u := by
  obtain ⟨_, _, rfl⟩ := counted
  obtain ⟨carry, ng, mg, kept, evaluated⟩ := h
  exact ⟨carry, ng, mg, fun same => (kept same).trans worn, evaluated⟩

namespace State

theorem filterSecond_unknown {s : State} (unknown : s.outsidePm = none) : s.filterSecond = s := by
  rw [filterSecond, unknown]

theorem filterSecond_loaded {s : State} {co : Nat} (known : s.outsidePm = some co) :
    FilterLoaded co s s.filterSecond := by
  rw [filterSecond, known]
  dsimp only
  split
  · next same => exact ⟨rfl, rfl, rfl, fun _ => rfl, fun changed => absurd same changed⟩
  · next changed =>
    exact ⟨rfl, rfl, rfl, fun same => absurd same changed, fun _ => (flag_writeFlag _ _ _ _).trans (if_pos rfl)⟩

theorem inletSecond_unknown {s : State} (unknown : s.outsidePm = none) :
    s.inletSecond = s.count (.regimeSeconds s.regime) :=
  filterSecond_unknown ((s.bump_counted _ 1).outsidePm.trans unknown)

theorem inletSecond_loaded {s : State} {co : Nat} (known : s.outsidePm = some co) : FilterLoaded co s s.inletSecond :=
  have counted := s.bump_counted (.regimeSeconds s.regime) 1
  (filterSecond_loaded (counted.outsidePm.trans known)).of_counted counted (s.flag_bump_ne _ _ _ (by decide))

theorem cell_inletSecond (s : State) : s.inletSecond.cell (.regimeSeconds s.regime) =
    (s.cell (.regimeSeconds s.regime)).add 1 :=
  (filterSecond_notes _ (.counter (.regimeSeconds s.regime)) (by simp)).trans ((s.cell_count _ _).trans (if_pos rfl))

/-! ## The event (R142) -/

/-- The accounting timer with its full second to run. -/
def restartSecond (s : State) : State := { s with accounting := { s.accounting with timer := some accountingTime } }

theorem restartSecond_only (s : State) : Only [.accountingTimer] s s.restartSecond := by
  intro p outside
  cases p <;> first | rfl | exact ⟨rfl, rfl⟩ | exact ⟨rfl, rfl, rfl⟩ | exact absurd (by decide) outside

theorem restartSecond_notes (s : State) (ns : List Note) : Notes ns s s.restartSecond := Notes.plain rfl rfl rfl

/-- The second's work on a role. -/
def roleSecond (s : State) : Role → State
  | .cabin => s.cabinSecond
  | .inlet => s.inletSecond
  | .forward => s

theorem roleSecond_only (s : State) (r : Role) :
    Only [.counters, .filter, .flagBits, .alert] s (s.roleSecond r) := by
  cases r with
  | forward => exact Only.refl _ s
  | inlet => exact s.inletSecond_only
  | cabin => exact s.cabinSecond_only.mono (by decide)

theorem execAccountingTimerExpiry_running {s : State} (runs : s.accounting.timer.isSome = true) :
    exec .accountingTimerExpiry s = .next (s.restartSecond.roleSecond s.startup.role).chooseOffer := by
  refine (if_pos runs).trans ?_
  cases s.startup.role <;> rfl

theorem accounting_chooseOffer (s : State) : s.chooseOffer.accounting = s.accounting := by
  unfold chooseOffer
  split <;> rfl

end State

/-- Settles O40: after the restart, by role, what `cabinSecond_unknown` and `cabinSecond_known` say of an exposure group
and `inletSecond_loaded` of the filter load. -/
theorem accountingSecondByRole : Obligations.AccountingSecondByRole := by
  intro s runs binOf burden co flow fresh
  let r := s.restartSecond
  have only : Only [.accountingTimer] s r := s.restartSecond_only
  have notes (ns : List Note) : Notes ns s r := s.restartSecond_notes ns
  refine ⟨_, State.execAccountingTimerExpiry_running runs, ?_⟩
  simp only [State.accounting_chooseOffer, State.cell_chooseOffer, State.flag_chooseOffer]
  refine ⟨r.roleSecond_only _ .accountingTimer (by decide), fun forward => ?_, fun cabin => ?_, fun inlet => ?_⟩
  · rw [forward]
    exact Changes.ends only (notes [])
  · rw [cabin]
    have door := r.cell_cabinSecond_door
    exact ⟨fun g => ⟨State.cabinSecond_unknown (s := r), fun b => State.cabinSecond_known (s := r)⟩,
      fun opened => door.trans (if_pos opened), fun closed => door.trans (if_neg (Bool.eq_false_iff.mp closed)),
      Changes.ends (only.append r.cabinSecond_only) ((notes _).trans r.cabinSecond_notes)⟩
  · rw [inlet]
    refine ⟨r.cell_inletSecond, fun unknown => ?_, fun v known => ?_,
      Changes.ends (only.append r.inletSecond_only) ((notes _).trans r.inletSecond_notes)⟩
    · have counts : r.roleSecond .inlet = r.count (.regimeSeconds s.regime) := State.inletSecond_unknown unknown
      rw [counts]
      exact Changes.ends (only.append (State.count_only _ _)) ((notes _).trans (State.count_notes _ _))
    · obtain ⟨carry, ng, mg, kept, evaluated⟩ : FilterLoaded v r (r.roleSecond .inlet) :=
        State.inletSecond_loaded known
      have fraction : s.regimeFresh = fresh := by
        dsimp only [fresh]
        unfold State.regimeFresh
        cases s.regime <;> rfl
      have product : r.filterProduct v = flow * (fresh * v + (1000 - fresh) * (s.cabinReading .pm).getD 0) *
          s.cfg.efficiency + s.accounting.carry := by
        rw [← fraction]
        rfl
      rw [product] at carry ng mg
      exact ⟨carry, ng, mg, kept, evaluated⟩

end Sys2Proof.Machine
end

section
/-! PROOFS. Every step keeps the flags with their conditions (O56). -/

namespace Sys2Proof.Machine

open Sys2Proof

/-! ## The ALERT pin (R160) -/

namespace AlertFollows

variable {s t : State}

/-- The pin is decided from the flags and the class map alone. -/
theorem of_flags (h : AlertFollows s) (flags : t.flags = s.flags) (cfg : t.cfg = s.cfg) : AlertFollows t := by
  unfold AlertFollows
  rw [flags, cfg]
  exact h

/-- An update of other parts. -/
theorem of_only {ps : List Part} (h : AlertFollows s) (only : Only ps s t)
    (bits : Part.flagBits ∉ ps := by decide) (alert : Part.alert ∉ ps := by decide)
    (cfg : Part.cfg ∉ ps := by decide) : AlertFollows t := by
  have bits : t.flags.bits = s.flags.bits := only .flagBits bits
  have alert : t.flags.alert = s.flags.alert := only .alert alert
  have cfg : t.cfg = s.cfg := only .cfg cfg
  unfold AlertFollows
  rw [bits, alert, cfg]
  exact h

theorem ite {c : Prop} [Decidable c] (h : AlertFollows s) (k : AlertFollows t) :
    AlertFollows (if c then s else t) := by
  split <;> assumption

/-- A flag that is written decides the pin, whatever it stood at before. -/
theorem writeFlag (s : State) (f : Flag) (b : Bool) : AlertFollows (s.writeFlag f b) := rfl

theorem bump (h : AlertFollows s) (c : Counter) (n : Nat) : AlertFollows (s.bump c n) := by
  unfold State.bump
  exact ite h (writeFlag _ _ _)

theorem count (h : AlertFollows s) (c : Counter) : AlertFollows (s.count c) := h.bump c 1

theorem hold (h : AlertFollows s) (box : Box) (x : Held) : AlertFollows (s.hold box x) := by
  have put : AlertFollows { s with transmit := { s.transmit with boxes := s.transmit.boxes.put box x } } := h
  unfold State.hold
  exact ite (put.count _) put

theorem post (h : AlertFollows s) (box : Box) (f : Frame) : AlertFollows (s.post box f) := by
  unfold State.post
  exact ite h (h.hold _ _)

/-! ### Targets and the regime -/

theorem damperChanged (h : AlertFollows s) (c d : Channel) : AlertFollows (s.damperChanged c d) := by
  unfold State.damperChanged
  have moved : AlertFollows
      (if c.output = d.output then s else s.bump .damperTravel (distance c.output d.output)) := ite h (h.bump _ _)
  exact ite (ite moved (writeFlag _ _ _))
    (ite (moved.of_only (State.startSettling_only _)) (ite moved (writeFlag _ _ _)))

theorem putChannel (h : AlertFollows s) (n : RampName) (d : Channel) : AlertFollows (s.putChannel n d) := by
  cases n with
  | damper =>
    have put : AlertFollows { s with ramps := { s.ramps with damper := d } } := h
    exact put.damperChanged s.ramps.damper d
  | blower => exact h

theorem takeTarget (h : AlertFollows s) (n : RampName) (x : Nat) : AlertFollows (s.takeTarget n x) := by
  unfold State.takeTarget
  exact ite (h.putChannel _ _) h

theorem takeTargets (h : AlertFollows s) (x y : Nat) : AlertFollows (s.takeTargets x y) :=
  (h.takeTarget .damper x).takeTarget .blower y

theorem applySafePosition (h : AlertFollows s) : AlertFollows s.applySafePosition := by
  unfold State.applySafePosition
  exact ite h (ite ((h.putChannel _ _).putChannel _ _) (h.takeTargets _ _))

theorem handComputed (h : AlertFollows s) (n : RampName) (afresh : Bool) (old new : Option Nat) :
    AlertFollows (s.handComputed n afresh old new) := by
  unfold State.handComputed
  split
  · exact h
  · exact ite (h.takeTarget _ _) h

theorem computeMix (h : AlertFollows s) (afresh : Bool) : AlertFollows (s.computeMix afresh) := by
  have recorded (m : MixRecord) : AlertFollows { s with mix := m } := h
  unfold State.computeMix
  refine ite ?_ h
  split
  · exact ((recorded _).handComputed .damper _ _ _).handComputed .blower _ _ _
  · exact (recorded _).handComputed .blower _ _ _
  all_goals exact h

theorem setRegime (h : AlertFollows s) (r : Regime) : AlertFollows { s with regime := r } := h

theorem handTargets (h : AlertFollows s) : AlertFollows s.handTargets := by
  unfold State.handTargets
  split
  · exact h.computeMix true
  · exact (h.takeTarget .damper _).computeMix true
  all_goals exact h.takeTargets _ _

theorem reselect (h : AlertFollows s) : AlertFollows s.reselect := by
  unfold State.reselect
  exact ite h (ite (h.setRegime _).applySafePosition (h.setRegime _).handTargets)

theorem rederive (h : AlertFollows s) : AlertFollows s.rederive := by
  unfold State.rederive
  exact ite h (h.setRegime _).handTargets

theorem setSafe (h : AlertFollows s) (q : SafeSet) : AlertFollows (s.setSafe q) := by
  unfold State.setSafe
  refine ite h ?_
  dsimp only
  split
  · exact (writeFlag _ _ _).applySafePosition
  · exact (writeFlag _ _ _).rederive
  · exact h

theorem dropRemote (h : AlertFollows s) : AlertFollows s.dropRemote := by
  unfold State.dropRemote
  exact ite (writeFlag _ _ _) h

/-! ### Outcomes and resets -/

theorem scoreSent (h : AlertFollows s) : AlertFollows s.scoreSent := by
  unfold State.scoreSent
  exact ite (writeFlag _ _ _) h

theorem scoreFailed (h : AlertFollows s) : AlertFollows s.scoreFailed := by
  have withdrawn (n : Nat) : AlertFollows (s.withdraw n) := writeFlag _ _ _
  unfold State.scoreFailed
  dsimp only
  split
  · exact h
  · exact ite (withdrawn _) (ite (writeFlag _ _ _) h)
  · exact ite (withdrawn _) h

/-- With every flag clear the pin is not asserted, whatever the class map. -/
theorem coldReset (s : State) : AlertFollows s.coldReset := by
  refine (List.any_eq_false.mpr fun f _ => ?_).symm
  have clear : s.coldReset.flags.bits[f.index] = false := tabulate_get _ f.index
  rw [clear]
  exact Bool.false_ne_true

end AlertFollows

theorem Act.keeps_alertFollows {s t : State} (a : Act s t) (h : AlertFollows s) : AlertFollows t := by
  induction a with
  | refl => exact h
  | trans _ _ first second => exact second (first h)
  | quiet only => exact h.of_only only
  | flag | rule => exact .writeFlag _ _ _
  | post s box f => exact h.post box f
  | answer s held => exact h.hold .answer held
  | reselect => exact h.reselect
  | rederive => exact h.rederive
  | setSafe s q => exact h.setSafe q
  | dropRemote => exact h.dropRemote
  | computeMix s afresh => exact h.computeMix afresh
  | list | peers | tally => exact h

theorem Does.keeps_alertFollows {s t : State} (d : Does s t) (h : AlertFollows s) : AlertFollows t := by
  induction d with
  | act a => exact a.keeps_alertFollows h
  | trans _ _ first second => exact second (first h)
  | choose s => exact h.of_only s.chooseOffer_only
  | powerOn s => exact .coldReset s
  | fullReset s => exact .coldReset s
  | joins s l =>
    have taken : AlertFollows (s.takeConfiguration l) := .writeFlag _ _ _
    exact taken.of_flags rfl rfl
  | safeCodes => exact (h.setRegime .safe).takeTargets _ _
  | steps s n => exact h.putChannel n _
  | scoreSent => exact h.scoreSent
  | scoreFailed => exact h.scoreFailed
  | conflict | withdrawalEnds | linkReset => exact .writeFlag _ _ _
  | dequeue | pins | runs | removes | keeps | abandons | score | queue | mark => exact h

/-! ## The level flags (R102, R156, R159, R166, R184) -/

/-- A note that names a level flag. -/
def Note.isLevelFlag : Note → Bool
  | .flag f => levelFlag f
  | .counter _ => false
  | .box _ => false

/-- A list of notes that names no level flag. -/
theorem Note.notMem_of_levelFlag {ns : List Note} (plain : ns.all (!·.isLevelFlag) = true) {f : Flag}
    (level : levelFlag f = true) : Note.flag f ∉ ns := fun member => by
  have unnamed := List.all_eq_true.mp plain _ member
  rw [Note.isLevelFlag, level] at unnamed
  cases unnamed

/-- An update whose notes name no level flag leaves the level flags. -/
theorem Notes.levelFlag {ns : List Note} {s t : State} (notes : Notes ns s t)
    (plain : ns.all (!·.isLevelFlag) = true := by rfl) {f : Flag} (level : levelFlag f = true) : t.flag f = s.flag f :=
  notes (.flag f) (Note.notMem_of_levelFlag plain level)

namespace State

theorem flag_of_bits {s t : State} (bits : t.flags.bits = s.flags.bits) (f : Flag) : t.flag f = s.flag f :=
  congrArg (·[f.index]) bits

theorem flag_writeFlag_same (s : State) (f : Flag) (b : Bool) : (s.writeFlag f b).flag f = b :=
  (s.flag_writeFlag f f b).trans (if_pos rfl)

theorem flag_writeFlag_ne (s : State) {f g : Flag} (b : Bool) (h : f ≠ g) : (s.writeFlag f b).flag g = s.flag g :=
  (s.flag_writeFlag f g b).trans (if_neg h)

/-- A withdrawal leaves the link WITHDRAWN, with LINK_WITHDRAWN set and LINK_PASSIVE clear (R166). -/
theorem withdraw_link (s : State) (n : Nat) : (s.withdraw n).link.state = .withdrawn ∧
    (s.withdraw n).flag .linkPassive = false ∧ (s.withdraw n).flag .linkWithdrawn = true := by
  refine ⟨?_, flag_writeFlag_same _ _ _, ?_⟩
  · unfold withdraw
    exact count_only _ .withdrawals .linkState (by decide)
  · exact (flag_writeFlag_ne _ _ (by decide)).trans (flag_writeFlag_same _ _ _)

theorem flag_withdraw_ne (s : State) (n : Nat) {f : Flag} (passive : f ≠ .linkPassive)
    (withdrawn : f ≠ .linkWithdrawn) (rollover : f ≠ .counterRollover) : (s.withdraw n).flag f = s.flag f := by
  unfold withdraw
  dsimp only
  rw [clearFlag, flag_writeFlag_ne _ _ passive.symm, setFlag, flag_writeFlag_ne _ _ withdrawn.symm, count,
    flag_bump_ne _ _ _ _ rollover]
  rfl

end State

namespace LevelFlags

variable {s t : State}

/-- The level flags and the fields they follow are as they were. -/
theorem of_same (h : LevelFlags s) (flags : ∀ f, levelFlag f = true → t.flag f = s.flag f)
    (safe : t.safe.nonempty = s.safe.nonempty) (station : t.startup.station = s.startup.station)
    (link : t.link.state = s.link.state) (rules : t.rules = s.rules) : LevelFlags t where
  safeActive := by rw [flags _ rfl, safe, h.safeActive]
  conflict := by rw [flags _ rfl, station, h.conflict]
  passive := by rw [flags _ rfl, link, h.passive]
  withdrawn := by rw [flags _ rfl, link, h.withdrawn]
  rules n := by rw [flags _ rfl, rules, h.rules]

/-- An update of other parts that leaves the level flags. -/
theorem of_only {ps : List Part} (h : LevelFlags s) (only : Only ps s t)
    (flags : ∀ f, levelFlag f = true → t.flag f = s.flag f) (safe : Part.safeSet ∉ ps := by decide)
    (station : Part.station ∉ ps := by decide) (link : Part.linkState ∉ ps := by decide)
    (rules : Part.rules ∉ ps := by decide) : LevelFlags t :=
  h.of_same flags (congrArg SafeSet.nonempty (only .safeSet safe)) (only .station station) (only .linkState link)
    (only .rules rules)

/-! ### The safe-source set (R102) -/

/-- An update of the safe-source set and of SAFE_ACTIVE with it. -/
theorem of_safe {ps : List Part} {ns : List Note} (h : LevelFlags s) (only : Only ps s t)
    (notes : Notes (.flag .safeActive :: ns) s t) (follows : t.flag .safeActive = t.safe.nonempty)
    (plain : ns.all (!·.isLevelFlag) = true := by rfl) (station : Part.station ∉ ps := by decide)
    (link : Part.linkState ∉ ps := by decide) (rules : Part.rules ∉ ps := by decide) : LevelFlags t := by
  have flags (f : Flag) (level : levelFlag f = true) (other : f ≠ .safeActive) : t.flag f = s.flag f :=
    notes (.flag f) (List.not_mem_cons_of_ne_of_not_mem (fun same => other (Note.flag.inj same))
      (Note.notMem_of_levelFlag plain level))
  have station : t.startup.station = s.startup.station := only .station station
  have link : t.link.state = s.link.state := only .linkState link
  have rules : t.rules = s.rules := only .rules rules
  exact ⟨follows, by rw [flags .conflict rfl nofun, station, h.conflict],
    by rw [flags .linkPassive rfl nofun, link, h.passive], by rw [flags .linkWithdrawn rfl nofun, link, h.withdrawn],
    fun n => by rw [flags (.rule n) rfl nofun, rules, h.rules]⟩

theorem setSafe (h : LevelFlags s) (q : SafeSet) : LevelFlags (s.setSafe q) := by
  cases works : s.listWorks with
  | false => rwa [State.setSafe_of_idle works]
  | true =>
    obtain ⟨inlet, station⟩ := s.listWorks_iff.mp works
    have handed := s.setSafe_handed q inlet
    refine h.of_safe (s.setSafe_only q) (s.setSafe_notes q) ?_
    rw [handed.set inlet station]
    cases before : s.safe.nonempty <;> cases after : q.nonempty
    · exact (handed.inside inlet (before.trans after.symm)).1.trans (h.safeActive.trans before)
    · exact (handed.entered inlet station before after).1
    · exact (handed.left inlet station before after).1
    · exact (handed.inside inlet (before.trans after.symm)).1.trans (h.safeActive.trans before)

theorem dropRemote (h : LevelFlags s) : LevelFlags s.dropRemote := by
  refine h.of_safe s.dropRemote_only s.dropRemote_notes ?_
  unfold State.dropRemote
  dsimp only
  split
  · next emptied =>
    obtain ⟨-, after⟩ := Bool.and_eq_true_iff.mp emptied
    exact (State.flag_writeFlag_same _ _ _).trans ((Bool.not_eq_true' _).mp after).symm
  · next stays =>
    refine h.safeActive.trans (Bool.eq_iff_iff.mpr ⟨fun before => ?_, SafeSet.localOnly_nonempty⟩)
    by_contra after
    exact stays (Bool.and_eq_true_iff.mpr ⟨before, by rw [Bool.eq_false_iff.mpr after]; rfl⟩)

/-! ### The link state (R166) -/

/-- An update of the link state with LINK_PASSIVE and LINK_WITHDRAWN. -/
theorem of_link {ps : List Part} (h : LevelFlags s) (only : Only ps s t)
    (flags : ∀ f, levelFlag f = true → f ≠ .linkPassive → f ≠ .linkWithdrawn → t.flag f = s.flag f)
    (passive : t.flag .linkPassive = decide (t.link.state = .passive))
    (withdrawn : t.flag .linkWithdrawn = decide (t.link.state = .withdrawn))
    (safe : Part.safeSet ∉ ps := by decide) (station : Part.station ∉ ps := by decide)
    (rules : Part.rules ∉ ps := by decide) : LevelFlags t := by
  have safe : t.safe = s.safe := only .safeSet safe
  have station : t.startup.station = s.startup.station := only .station station
  have rules : t.rules = s.rules := only .rules rules
  exact ⟨by rw [flags .safeActive rfl nofun nofun, safe, h.safeActive],
    by rw [flags .conflict rfl nofun nofun, station, h.conflict], passive, withdrawn,
    fun n => by rw [flags (.rule n) rfl nofun nofun, rules, h.rules]⟩

/-- The score takes a value and the link state stays. -/
theorem setScore (h : LevelFlags s) (n : Nat) {l : LinkState} (state : s.link.state = l) : LevelFlags (s.setLink n l) :=
  h.of_same (fun _ _ => rfl) rfl rfl state.symm rfl

/-- The link state takes a value other than WITHDRAWN, from one that is not WITHDRAWN, and LINK_PASSIVE is written with
it. -/
theorem setPassive (h : LevelFlags s) (n : Nat) {l : LinkState} {b : Bool} (before : s.link.state ≠ .withdrawn)
    (after : l ≠ .withdrawn) (follows : b = decide (l = .passive)) :
    LevelFlags ((s.setLink n l).writeFlag .linkPassive b) := by
  refine h.of_link ((s.setLink_only n l).append (State.writeFlag_only _ _ _))
    (fun f _ other _ => (State.flag_writeFlag_ne _ _ other.symm).trans rfl)
    ((State.flag_writeFlag_same _ _ _).trans follows) ?_
  have clear : s.flag .linkWithdrawn = false := h.withdrawn.trans (decide_eq_false before)
  exact ((State.flag_writeFlag_ne _ _ (by decide)).trans clear).trans (decide_eq_false after).symm

theorem withdraw (h : LevelFlags s) (n : Nat) : LevelFlags (s.withdraw n) := by
  obtain ⟨state, passive, withdrawn⟩ := s.withdraw_link n
  refine h.of_link (s.withdraw_only n)
    (fun f level passive withdrawn => s.flag_withdraw_ne n passive withdrawn ?_) ?_ ?_
  · rintro rfl
    cases level
  · rw [passive, state]
    rfl
  · rw [withdrawn, state]
    rfl

theorem scoreSent (h : LevelFlags s) : LevelFlags s.scoreSent := by
  unfold State.scoreSent
  dsimp only
  split
  · next recovers => exact h.setPassive _ (by rw [recovers.1]; decide) (by decide) rfl
  · exact h.setScore _ rfl

theorem scoreFailed (h : LevelFlags s) : LevelFlags s.scoreFailed := by
  unfold State.scoreFailed
  dsimp only
  split
  · next state => exact h.setScore _ state
  · next state =>
    split
    · exact h.withdraw _
    · split
      · exact h.setPassive _ (by rw [state]; decide) (by decide) rfl
      · exact h.setScore _ state
  · next state =>
    split
    · exact h.withdraw _
    · exact h.setScore _ state

theorem withdrawalEnds (h : LevelFlags s) (state : s.link.state = .withdrawn) :
    LevelFlags (({ s with link := { s.link with score := 0, state := .active, withdrawal := none } }).clearFlag
      .linkWithdrawn) := by
  have passive : s.flag .linkPassive = false := h.passive.trans (by rw [state]; rfl)
  have other (f : Flag) (ne : f ≠ .linkWithdrawn) : (State.clearFlag
      { s with link := { s.link with score := 0, state := .active, withdrawal := none } } .linkWithdrawn).flag f =
        s.flag f := State.flag_writeFlag_ne _ _ ne.symm
  exact ⟨(other .safeActive nofun).trans h.safeActive, (other .conflict nofun).trans h.conflict,
    (other .linkPassive nofun).trans passive, State.flag_writeFlag_same _ _ _,
    fun n => (other (.rule n) nofun).trans (h.rules n)⟩

theorem linkReset (h : LevelFlags s) (f : Frame) :
    LevelFlags (((s.linkCleared f).clearFlag .linkPassive).clearFlag .linkWithdrawn) := by
  have counted (g : Flag) (level : levelFlag g = true) : (s.linkCleared f).flag g = s.flag g := by
    have rollover : g ≠ .counterRollover := by
      rintro rfl
      cases level
    show (if s.transmit.boxes.supersedes .answer then s.count .superseded else s).flag g = s.flag g
    split
    · exact s.flag_bump_ne _ _ _ rollover
    · rfl
  refine h.of_link (((s.linkCleared_only f).append (State.writeFlag_only _ .linkPassive false)).append
    (State.writeFlag_only _ .linkWithdrawn false)) (fun g level passive withdrawn => ?_) ?_
    (State.flag_writeFlag_same _ _ _)
  · exact ((State.flag_writeFlag_ne _ _ withdrawn.symm).trans (State.flag_writeFlag_ne _ _ passive.symm)).trans
      (counted g level)
  · exact (State.flag_writeFlag_ne _ _ (by decide)).trans (State.flag_writeFlag_same _ _ _)

/-! ### Rules and station states (R156, R184) -/

/-- A rule takes a state, and its flag with it. -/
theorem setRule (h : LevelFlags s) (n : Fin 8) (r : RuleState) :
    LevelFlags ((s.setRule n r).writeFlag (.rule n) r.firing) := by
  have other (f : Flag) (ne : Flag.rule n ≠ f) : ((s.setRule n r).writeFlag (.rule n) r.firing).flag f = s.flag f :=
    State.flag_writeFlag_ne _ _ ne
  refine ⟨(other .safeActive nofun).trans h.safeActive, (other .conflict nofun).trans h.conflict,
    (other .linkPassive nofun).trans h.passive, (other .linkWithdrawn nofun).trans h.withdrawn, fun m => ?_⟩
  have rule : ((s.setRule n r).writeFlag (.rule n) r.firing).rules[m] = if n = m then r else s.rules[m] :=
    set_get s.rules n m r
  by_cases same : n = m
  · subst same
    rw [rule, if_pos rfl]
    exact State.flag_writeFlag_same _ _ _
  · rw [rule, if_neg same]
    exact (other (.rule m) fun e => same (Flag.rule.inj e)).trans (h.rules m)

/-- The tallies of a rule move and its state stays. -/
theorem setTally (h : LevelFlags s) (n : Fin 8) {r : RuleState} (state : r.firing = s.rules[n].firing) :
    LevelFlags (s.setRule n r) := by
  refine ⟨h.safeActive, h.conflict, h.passive, h.withdrawn, fun m => ?_⟩
  have rule : (s.setRule n r).rules[m] = if n = m then r else s.rules[m] := set_get s.rules n m r
  rw [rule]
  split
  · next same =>
    subst same
    exact (h.rules n).trans state.symm
  · exact h.rules m

theorem coldReset (s : State) : LevelFlags s.coldReset := by
  have clear (f : Flag) : s.coldReset.flag f = false := tabulate_get _ f.index
  refine ⟨(clear _).trans resetSafeSet_nonempty.symm, clear _, clear _, clear _, fun n => (clear _).trans ?_⟩
  exact (congrArg RuleState.firing (tabulate_get (fun _ => ⟨false, 0, 0⟩) n)).symm

/-- The station leaves LOADING, and the two CONFIG flags are no level flags. -/
theorem joins (h : LevelFlags s) (l : Loaded) (loading : s.startup.station = .loading) :
    LevelFlags (s.takeConfiguration l).startBlocks := by
  have other (f : Flag) (isDefault : Flag.configDefault ≠ f) (adjusted : Flag.configAdjusted ≠ f) :
      (s.takeConfiguration l).startBlocks.flag f = s.flag f :=
    (State.flag_writeFlag_ne _ _ adjusted).trans (State.flag_writeFlag_ne _ _ isDefault)
  have conflict : s.flag .conflict = false := h.conflict.trans (by rw [loading]; rfl)
  exact ⟨(other .safeActive nofun nofun).trans h.safeActive, (other .conflict nofun nofun).trans conflict,
    (other .linkPassive nofun nofun).trans h.passive, (other .linkWithdrawn nofun nofun).trans h.withdrawn,
    fun n => (other (.rule n) nofun nofun).trans (h.rules n)⟩

theorem runs (h : LevelFlags s) (joining : s.startup.station = .joining) :
    LevelFlags { s with startup := { s.startup with station := .running, joining := none } } :=
  ⟨h.safeActive, h.conflict.trans (by rw [joining]; rfl), h.passive, h.withdrawn, h.rules⟩

theorem entersConflict (h : LevelFlags s) : LevelFlags (s.quiet.setFlag .conflict) := by
  have other (f : Flag) (ne : Flag.conflict ≠ f) : (s.quiet.setFlag .conflict).flag f = s.flag f :=
    State.flag_writeFlag_ne _ _ ne
  exact ⟨(other .safeActive nofun).trans h.safeActive, State.flag_writeFlag_same _ _ _,
    (other .linkPassive nofun).trans h.passive, (other .linkWithdrawn nofun).trans h.withdrawn,
    fun n => (other (.rule n) nofun).trans (h.rules n)⟩

theorem tick (h : LevelFlags s) : LevelFlags s.tick :=
  h.of_same (fun _ _ => rfl) s.safe.tick_nonempty rfl rfl rfl

end LevelFlags

theorem Act.keeps_levelFlags {s t : State} (a : Act s t) (h : LevelFlags s) : LevelFlags t := by
  induction a with
  | refl => exact h
  | trans _ _ first second => exact second (first h)
  | quiet only => exact h.of_only only fun f _ => State.flag_of_bits (only .flagBits (by decide)) f
  | flag s f b plain =>
    refine h.of_only (s.writeFlag_only f b) fun g level => State.flag_writeFlag_ne _ _ ?_
    rintro rfl
    exact absurd (plain.symm.trans level) (by decide)
  | post s box f => exact h.of_only (s.post_only box f) fun _ => (s.post_notes box f).levelFlag
  | answer s held => exact h.of_only (s.hold_only .answer held) fun _ => (s.hold_notes .answer held).levelFlag
  | reselect s => exact h.of_only s.reselect_only fun _ => s.reselect_notes.levelFlag
  | rederive s => exact h.of_only s.rederive_only fun _ => s.rederive_notes.levelFlag
  | setSafe s q => exact h.setSafe q
  | dropRemote => exact h.dropRemote
  | computeMix s afresh => exact h.of_only (s.computeMix_only afresh) fun _ => (s.computeMix_notes afresh).levelFlag
  | rule s n r => exact h.setRule n r
  | tally s n r state => exact h.setTally n state
  | list | peers => exact h.of_same (fun _ _ => rfl) rfl rfl rfl rfl

theorem Does.keeps_levelFlags {s t : State} (d : Does s t) (h : LevelFlags s) : LevelFlags t := by
  induction d with
  | act a => exact a.keeps_levelFlags h
  | trans _ _ first second => exact second (first h)
  | choose s => exact h.of_only s.chooseOffer_only fun f _ => s.flag_chooseOffer f
  | powerOn s => exact .coldReset s
  | fullReset s => exact .coldReset s
  | joins s l loading => exact h.joins l loading
  | safeCodes s =>
    exact h.of_only ((s.setRegime_only .safe).append (State.takeTargets_only _ _ _)) fun _ =>
      (State.takeTargets_notes _ _ _).levelFlag
  | runs s joining => exact h.runs joining
  | conflict => exact h.entersConflict
  | steps s n => exact h.of_only (s.putChannel_only n _) fun _ => (s.putChannel_notes n _).levelFlag
  | scoreSent => exact h.scoreSent
  | scoreFailed => exact h.scoreFailed
  | score s n => exact h.setScore n rfl
  | withdrawalEnds s state => exact h.withdrawalEnds state
  | linkReset s f => exact h.linkReset f
  | dequeue | pins | removes | keeps | abandons | queue | mark => exact h.of_same (fun _ _ => rfl) rfl rfl rfl rfl

/-! ## The step -/

theorem step_keeps_alertFollows {s t : State} (h : AlertFollows s) (run : step s = .next t) : AlertFollows t := by
  rcases step_cases run with rfl | ⟨c, rest, run⟩
  · exact h.of_flags rfl rfl
  · exact (exec_does run).keeps_alertFollows h

theorem step_keeps_levelFlags {s t : State} (h : LevelFlags s) (run : step s = .next t) : LevelFlags t := by
  rcases step_cases run with rfl | ⟨c, rest, run⟩
  · exact h.tick
  · exact (exec_does run).keeps_levelFlags (h.of_same (fun _ _ => rfl) rfl rfl rfl rfl)

/-- Settles O56: what a step does (`Does`) decides the pin with each flag it writes, and moves a level flag only
together with the field the flag follows. -/
theorem everyStepKeepsTheFlags : Obligations.EveryStepKeepsTheFlags :=
  ⟨fun _ _ => step_keeps_alertFollows, fun _ _ => step_keeps_levelFlags⟩

end Sys2Proof.Machine
end

section
/-! PROOFS. The relation, the tallies and the hand-on of a rule (O41). -/

namespace Sys2Proof.Machine

open Sys2Proof

/-! ## The relation (R154) -/

section Relation

variable {h : Nat} {a c : Int}

/-! While QUIET the comparand stands where it is. -/

theorem relationHolds_quiet_of_lt (less : a < c) (r : Relation) :
    relationHolds r false h a c = true ↔ r = .lt ∨ r = .le ∨ r = .ne := by
  cases r <;> simp [relationHolds] <;> omega

theorem relationHolds_quiet_of_eq (equal : a = c) (r : Relation) :
    relationHolds r false h a c = true ↔ r = .le ∨ r = .eq ∨ r = .ge := by
  cases r <;> simp [relationHolds] <;> omega

theorem relationHolds_quiet_of_gt (greater : c < a) (r : Relation) :
    relationHolds r false h a c = true ↔ r = .gt ∨ r = .ge ∨ r = .ne := by
  cases r <;> simp [relationHolds] <;> omega

/-! While FIRING the hysteresis moves it against the release. -/

theorem relationHolds_ge_firing : relationHolds .ge true h a c = true ↔ c - h ≤ a := decide_eq_true_iff

theorem relationHolds_gt_firing : relationHolds .gt true h a c = true ↔ c - h < a := decide_eq_true_iff

theorem relationHolds_le_firing : relationHolds .le true h a c = true ↔ a ≤ c + h := decide_eq_true_iff

theorem relationHolds_lt_firing : relationHolds .lt true h a c = true ↔ a < c + h := decide_eq_true_iff

theorem relationHolds_eq_firing : relationHolds .eq true h a c = true ↔ a - c ≤ h ∧ c - a ≤ h := decide_eq_true_iff

theorem relationHolds_ne_firing : relationHolds .ne true h a c = true ↔ a ≠ c := decide_eq_true_iff

/-- A relation that holds while QUIET holds while FIRING. -/
theorem relationHolds_firing_of_quiet (r : Relation) (holds : relationHolds r false h a c = true) :
    relationHolds r true h a c = true := by
  cases r <;> simp [relationHolds] at holds ⊢ <;> omega

end Relation

/-! ## The tallies (R155) -/

namespace RuleState

variable {c : RuleCfg} {r : RuleState}

theorem advance_fires (quiet : r.firing = false) (reached : c.fireCount ≤ r.fireTally + 1) :
    advance c r true = { firing := true, fireTally := 0, releaseTally := 0 } := by
  simp [advance, quiet, reached]

theorem advance_towards_firing (quiet : r.firing = false) (below : r.fireTally + 1 < c.fireCount) :
    advance c r true = { r with fireTally := r.fireTally + 1 } := by
  simp [advance, quiet, Nat.not_le.mpr below]

theorem advance_quiet (quiet : r.firing = false) : advance c r false = { r with fireTally := 0 } := by
  simp [advance, quiet]

theorem advance_firing (firing : r.firing = true) : advance c r true = { r with releaseTally := 0 } := by
  simp [advance, firing]

theorem advance_towards_release (firing : r.firing = true) (below : r.releaseTally + 1 < c.releaseCount) :
    advance c r false = { r with releaseTally := r.releaseTally + 1 } := by
  simp [advance, firing, Nat.not_le.mpr below]

theorem advance_releases (firing : r.firing = true) (reached : c.releaseCount ≤ r.releaseTally + 1) :
    advance c r false = { firing := false, fireTally := 0, releaseTally := 0 } := by
  simp [advance, firing, reached]

end RuleState

/-! ## A rule takes a state, and its flag with it (R156) -/

theorem emitterDemand_ruleSource {c : Cfg} {n : Fin 8} {r : DemandRegime} {level : Nat}
    (action : c.rules[n].action = .demand r level) : emitterDemand c (ruleSource n) = some (r, level) := by
  have rule : ruleOfSource (ruleSource n) = n := Fin.ext (Nat.add_sub_cancel_left 8 n.val)
  have other (m : Fin 16) (small : m.val < 8) : ruleSource n ≠ m := fun same => by
    have value : 8 + n.val = m.val := congrArg Fin.val same
    omega
  have above : 8 ≤ ruleSource n := Nat.le_add_right 8 n.val
  unfold emitterDemand
  simp only [if_neg (other 1 (by decide)), if_neg (other 2 (by decide)), if_neg (other 3 (by decide)), if_pos above,
    rule, action]

/-- A rule that has become FIRING or QUIET is handed on by its action: DEMAND as the condition of the source 8 + n, SAFE
through the rule safe condition, NONE not at all. -/
structure RuleHanded (n : Fin 8) (firing : Bool) (s t : State) : Prop where
  demand : ∀ r level, s.cfg.rules[n].action = .demand r level →
    (ruleSource n).val = 8 + n.val ∧ ConditionHanded (ruleSource n) r level firing s t
  safe : s.cfg.rules[n].action = .safe → SafeReasonHanded { s.safe with rule := t.ruleSafe } s t
  none : s.cfg.rules[n].action = .none → Changes [.rules, .alert] [.flag (.rule n)] s t

namespace State

variable {s : State} {n : Fin 8}

/-- A rule's new state with the rule's flag, before either is handed on. -/
def withRule (s : State) (n : Fin 8) (r : RuleState) : State := (s.setRule n r).writeFlag (.rule n) r.firing

theorem withRule_only (s : State) (n : Fin 8) (r : RuleState) : Only [.rules, .flagBits, .alert] s (s.withRule n r) :=
  (s.setRule_only n r).append (writeFlag_only _ _ _)

theorem withRule_notes (s : State) (n : Fin 8) (r : RuleState) : Notes [.flag (.rule n)] s (s.withRule n r) :=
  (s.setRule_notes n r).seq (writeFlag_notes _ _ _) (by simp) (by simp)

theorem rules_setRule_same (s : State) (n : Fin 8) (r : RuleState) : (s.setRule n r).rules[n] = r :=
  (set_get s.rules n n r).trans (if_pos rfl)

theorem rules_setRule_ne (s : State) {n m : Fin 8} (r : RuleState) (h : m ≠ n) :
    (s.setRule n r).rules[m] = s.rules[m] :=
  (set_get s.rules n m r).trans (if_neg h.symm)

theorem ruleSafe_congr {t : State} (rules : t.rules = s.rules) (cfg : t.cfg = s.cfg) : t.ruleSafe = s.ruleSafe := by
  unfold ruleSafe
  rw [rules, cfg]

theorem ruleSafe_iff : s.ruleSafe = true ↔
    ∃ m : Fin 8, s.rules[m].firing = true ∧ s.cfg.rules[m].action = .safe := by
  simp [ruleSafe]

end State

/-- What a condition hands on does not depend on the rules and their flags before. -/
theorem ConditionHanded.ofRule {source : Fin 16} {d : DemandRegime} {level : Nat} {holds : Bool} {s t : State}
    {n : Fin 8} {r : RuleState} (h : ConditionHanded source d level holds (s.withRule n r) t) :
    ConditionHanded source d level holds s t :=
  ⟨fun hr hs hh => ⟨(h.raised hr hs hh).again, (h.raised hr hs hh).room, (h.raised hr hs hh).full⟩, h.withdrawn,
    h.selected, h.inlet, h.begins, h.ends, h.stays, h.others, h.elsewhere⟩

/-- What a safe reason hands on does not depend on the rules and their flags before. -/
theorem SafeReasonHanded.ofRule {q : SafeSet} {s t : State} {n : Fin 8} {r : RuleState}
    (h : SafeReasonHanded q (s.withRule n r) t) : SafeReasonHanded q s t := by
  refine ⟨h.set, h.entered, h.left, fun inlet same => ?_, h.inlet, h.begins, h.ends, h.stays, h.others, h.elsewhere⟩
  obtain ⟨flag, kept⟩ := h.inside inlet same
  exact ⟨flag.trans (State.flag_writeFlag_ne _ _ nofun), kept⟩

/-! ## The hand-on by the rule's action (R156) -/

namespace State

variable {s : State} {n : Fin 8}

theorem ruleChanged_none (action : s.cfg.rules[n].action = .none) (r : RuleState) :
    (s.setRule n r).ruleChanged n r.firing = s.withRule n r := by
  unfold ruleChanged
  rw [show (s.setRule n r).cfg.rules[n].action = _ from action]
  rfl

theorem ruleChanged_demand {d : DemandRegime} {level : Nat} (action : s.cfg.rules[n].action = .demand d level)
    (r : RuleState) : (s.setRule n r).ruleChanged n r.firing =
      (s.withRule n r).conditionChanged (ruleSource n) d level r.firing := by
  unfold ruleChanged
  rw [show (s.setRule n r).cfg.rules[n].action = _ from action]
  rfl

theorem ruleChanged_safe (action : s.cfg.rules[n].action = .safe) (r : RuleState) :
    (s.setRule n r).ruleChanged n r.firing = (s.withRule n r).ruleSafeChanged := by
  unfold ruleChanged
  rw [show (s.setRule n r).cfg.rules[n].action = _ from action]
  rfl

/-- What the hand-on touches once the rule has its state and its flag: nothing of either. -/
theorem ruleChanged_frame (s : State) (n : Fin 8) (r : RuleState) :
    Only conditionParts (s.withRule n r) ((s.setRule n r).ruleChanged n r.firing) ∧
    Notes (.box (.demand (ruleSource n)) :: (forceNotes ++ listNotes)) (s.withRule n r)
      ((s.setRule n r).ruleChanged n r.firing) := by
  cases action : s.cfg.rules[n].action with
  | none =>
    rw [ruleChanged_none action]
    exact ⟨Only.refl _ _, Notes.refl _ _⟩
  | demand d level =>
    rw [ruleChanged_demand action]
    exact ⟨conditionChanged_only _ _ _ _ _, (conditionChanged_notes _ _ _ _ _).mono (by simp)⟩
  | safe =>
    rw [ruleChanged_safe action]
    exact ⟨ruleSafeChanged_only _, (ruleSafeChanged_notes _).mono (by simp)⟩

theorem rules_ruleChanged (s : State) (n : Fin 8) (r : RuleState) :
    ((s.setRule n r).ruleChanged n r.firing).rules = (s.setRule n r).rules :=
  (s.ruleChanged_frame n r).1 .rules (by decide)

theorem flag_ruleChanged (s : State) (n : Fin 8) (r : RuleState) :
    ((s.setRule n r).ruleChanged n r.firing).flag (.rule n) = r.firing :=
  ((s.ruleChanged_frame n r).2 (.flag (.rule n)) (by simp)).trans (flag_writeFlag_same _ _ _)

theorem ruleChanged_handed (s : State) (n : Fin 8) (r : RuleState) :
    RuleHanded n r.firing s ((s.setRule n r).ruleChanged n r.firing) where
  demand d level action := by
    rw [ruleChanged_demand action]
    exact ⟨rfl, (conditionChanged_handed (s.withRule n r) _ d level _ fun _ => emitterDemand_ruleSource action).ofRule⟩
  safe action := by
    obtain ⟨only, -⟩ := s.ruleChanged_frame n r
    rw [ruleSafe_congr (only .rules (by decide)) (only .cfg (by decide)), ruleChanged_safe action]
    exact (s.withRule n r).ruleSafeChanged_handed.ofRule
  none action := by
    rw [ruleChanged_none action]
    exact Changes.within (s.withRule_only n r) (s.withRule_notes n r)

/-! ## One rule at a sweep end (R155) -/

/-- Rule `n` is enabled and reads these two operands. -/
structure RuleReads (s : State) (n : Fin 8) (a b : Nat) : Prop where
  enabled : s.cfg.rules[n].enabled = true
  operand : s.operandValue s.cfg.rules[n].operandA = some a
  comparand : s.comparandValue s.cfg.rules[n].comparand = some b

/-- Whether the relation of rule `n` holds between two values, as the rule stands. -/
def ruleHolds (s : State) (n : Fin 8) (a b : Nat) : Bool :=
  relationHolds s.cfg.rules[n].relation s.rules[n].firing s.cfg.rules[n].hysteresis a b

theorem evaluateRule_disabled (disabled : s.cfg.rules[n].enabled = false) : s.evaluateRule n = s :=
  if_neg (Bool.eq_false_iff.mp disabled)

theorem evaluateRule_unknown (unknown : s.operandValue s.cfg.rules[n].operandA = none ∨
    s.comparandValue s.cfg.rules[n].comparand = none) : s.evaluateRule n = s := by
  unfold evaluateRule
  dsimp only
  split
  · split
    · next operand comparand =>
      rcases unknown with unknown | unknown
      · cases operand.symm.trans unknown
      · cases comparand.symm.trans unknown
    · rfl
  · rfl

theorem evaluateRule_known {a b : Nat} (reads : s.RuleReads n a b) {v : Bool}
    {new : RuleState} (holds : s.ruleHolds n a b = v)
    (advance : RuleState.advance s.cfg.rules[n] s.rules[n] v = new) :
    s.evaluateRule n = if new.firing = s.rules[n].firing then s.setRule n new
      else (s.setRule n new).ruleChanged n new.firing := by
  subst holds advance
  unfold evaluateRule
  dsimp only
  rw [if_pos reads.enabled, reads.operand, reads.comparand]
  rfl

/-- What a rule can do at a sweep end: nothing, a tally moved, or a change of its state handed on. -/
theorem evaluateRule_cases (s : State) (n : Fin 8) : s.evaluateRule n = s ∨
    ∃ r, s.evaluateRule n = s.setRule n r ∨ s.evaluateRule n = (s.setRule n r).ruleChanged n r.firing := by
  cases enabled : s.cfg.rules[n].enabled with
  | false => exact .inl (evaluateRule_disabled enabled)
  | true =>
    cases operand : s.operandValue s.cfg.rules[n].operandA with
    | none => exact .inl (evaluateRule_unknown (.inl operand))
    | some a =>
      cases comparand : s.comparandValue s.cfg.rules[n].comparand with
      | none => exact .inl (evaluateRule_unknown (.inr comparand))
      | some b =>
        have known := evaluateRule_known ⟨enabled, operand, comparand⟩ rfl rfl
        rw [known]
        split
        · exact .inr ⟨_, .inl rfl⟩
        · exact .inr ⟨_, .inr rfl⟩

/-- The other rules stand as they stood. -/
theorem rules_evaluateRule_ne (s : State) {n m : Fin 8} (other : m ≠ n) :
    (s.evaluateRule n).rules[m] = s.rules[m] := by
  rcases s.evaluateRule_cases n with same | ⟨r, tally | changed⟩
  · rw [same]
  · rw [tally]
    exact s.rules_setRule_ne r other
  · rw [changed, rules_ruleChanged]
    exact s.rules_setRule_ne r other

theorem evaluateRule_changes (s : State) (n : Fin 8) :
    Changes (.rules :: .emitters :: .demands :: .safeSet :: selectionParts)
      (.flag (.rule n) :: .box (.demand (ruleSource n)) :: (forceNotes ++ listNotes)) s (s.evaluateRule n) := by
  refine Changes.within (s.evaluateRule_only n) ?_
  rcases s.evaluateRule_cases n with same | ⟨r, tally | changed⟩
  · rw [same]
    exact Notes.refl _ _
  · rw [tally]
    exact (s.setRule_notes n r).mono (List.nil_subset _)
  · rw [changed]
    obtain ⟨-, notes⟩ := s.ruleChanged_frame n r
    exact (s.withRule_notes n r).seq notes (by simp) (List.subset_cons_self _ _)

/-- A rule whose tallies move and whose state stays. -/
theorem evaluateRule_tally {a b : Nat} {v : Bool} (reads : s.RuleReads n a b) {new : RuleState}
    (holds : s.ruleHolds n a b = v) (advance : RuleState.advance s.cfg.rules[n] s.rules[n] v = new)
    (stays : new.firing = s.rules[n].firing) : s.evaluateRule n = s.setRule n new :=
  (evaluateRule_known reads holds advance).trans (if_pos stays)

/-- A rule that becomes FIRING or QUIET has its new state and its flag, and is handed on. -/
theorem evaluateRule_changed {a b : Nat} {v : Bool} (reads : s.RuleReads n a b) {new : RuleState}
    (holds : s.ruleHolds n a b = v) (advance : RuleState.advance s.cfg.rules[n] s.rules[n] v = new)
    (changes : new.firing ≠ s.rules[n].firing) :
    (s.evaluateRule n).rules[n] = new ∧ (s.evaluateRule n).flag (.rule n) = new.firing ∧
      RuleHanded n new.firing s (s.evaluateRule n) := by
  rw [(evaluateRule_known reads holds advance).trans (if_neg changes), rules_ruleChanged]
  exact ⟨s.rules_setRule_same n new, s.flag_ruleChanged n new, s.ruleChanged_handed n new⟩

theorem ruleSafe_evaluateRule (s : State) (n : Fin 8) : (s.evaluateRule n).ruleSafe = true ↔
    ∃ m : Fin 8, (s.evaluateRule n).rules[m].firing = true ∧ s.cfg.rules[m].action = .safe := by
  have cfg : (s.evaluateRule n).cfg = s.cfg := s.evaluateRule_only n .cfg (by decide)
  rw [ruleSafe_iff, cfg]

end State

/-- Settles O41: the relation by R154's table, and each case of R155 by the step of the tallies
(`RuleState.advance`) that it takes. -/
theorem rulesCompareAndAdvance : Obligations.RulesCompareAndAdvance := by
  refine ⟨⟨fun h a c => ?_, fun s n => State.evaluateRule_unknown⟩, fun s n => ?_⟩
  · refine ⟨relationHolds_quiet_of_lt, relationHolds_quiet_of_eq, relationHolds_quiet_of_gt, relationHolds_ge_firing,
      relationHolds_gt_firing, relationHolds_le_firing, relationHolds_lt_firing, relationHolds_eq_firing,
      relationHolds_ne_firing, relationHolds_firing_of_quiet, fun nonneg below => relationHolds_ge_firing.mpr ?_⟩
    omega
  · refine ⟨s.ruleSafe_evaluateRule n, State.evaluateRule_disabled, State.evaluateRule_unknown,
      fun a b enabled operand comparand => ?_, fun m => s.rules_evaluateRule_ne, s.evaluateRule_changes n⟩
    have reads : s.RuleReads n a b := ⟨enabled, operand, comparand⟩
    refine ⟨fun quiet holds reached => ?_, fun quiet holds below => ?_, fun quiet holds => ?_,
      fun firing holds => ?_, fun firing holds below => ?_, fun firing holds reached => ?_⟩
    · obtain ⟨state, flag, handed⟩ := State.evaluateRule_changed reads holds
        (RuleState.advance_fires quiet reached) (by rw [quiet]; decide)
      exact ⟨state, flag, handed.demand, handed.safe, handed.none⟩
    · exact State.evaluateRule_tally reads holds (RuleState.advance_towards_firing quiet below) rfl
    · exact State.evaluateRule_tally reads holds (RuleState.advance_quiet quiet) rfl
    · exact State.evaluateRule_tally reads holds (RuleState.advance_firing firing) rfl
    · exact State.evaluateRule_tally reads holds (RuleState.advance_towards_release firing below) rfl
    · obtain ⟨state, flag, handed⟩ := State.evaluateRule_changed reads holds
        (RuleState.advance_releases firing reached) (by rw [firing]; decide)
      exact ⟨state, flag, handed.demand, handed.safe, handed.none⟩

end Sys2Proof.Machine
end

section
/-! PROOFS. The rules of the link controller that its obligations share: the mailboxes, the frame on offer, the score and
the withdrawal (R164, R165, R166). -/

namespace Sys2Proof.Machine

open Sys2Proof

/-! ## Mailboxes (R164) -/

theorem Boxes.held_update (b : Boxes) (f : Held → Option Held) (x : Box) :
    (b.update f).held x = (b.held x).filterMap f := by
  have single (o : Option Held) : (o.bind f).toList = o.toList.filterMap f := by
    cases o with
    | none => rfl
    | some h => cases kept : f h <;> simp [kept]
  cases x <;> simp only [Boxes.held, Boxes.update, mapVector_get, single]

theorem Boxes.held_emptyBoxes (x : Box) : emptyBoxes.held x = [] := by
  cases x <;> simp only [Boxes.held, emptyBoxes, tabulate_get, Option.toList_none]

/-- Two states of the mailboxes that differ in the mark of the frame on offer alone hold the same content. -/
theorem Boxes.held_eq_nil_iff {b c : Boxes} (same : c.keepOffered = b.keepOffered) (x : Box) :
    c.held x = [] ↔ b.held x = [] := by
  have unmarked := congrArg (·.held x) same
  simp only [Boxes.held_map] at unmarked
  rw [← List.map_eq_nil_iff (f := Held.unmarked), unmarked, List.map_eq_nil_iff]

theorem Boxes.held_length {b c : Boxes} (same : c.keepOffered = b.keepOffered) (x : Box) :
    (c.held x).length = (b.held x).length := by
  have unmarked := congrArg (fun y => (y.held x).length) same
  simpa only [Boxes.held_map, List.length_map] using unmarked

theorem Boxes.keepOffered_keepOffered (b : Boxes) : b.keepOffered.keepOffered = b.keepOffered := by
  have single (o : Option Held) : (o.bind fun h => some { h with offered := false }).bind
      (fun h => some { h with offered := false }) = o.bind fun h => some { h with offered := false } := by
    cases o <;> rfl
  have fifo (l : List Held) : (l.map Held.unmarked).map Held.unmarked = l.map Held.unmarked := List.map_map
  have each (v : Vector (Option Held) 16) : mapVector (·.bind fun h => some { h with offered := false })
      (mapVector (·.bind fun h => some { h with offered := false }) v) =
        mapVector (·.bind fun h => some { h with offered := false }) v :=
    vector_ext_fin fun i => by simp only [mapVector_get, single]
  simp only [Boxes.keepOffered, Boxes.update, filterMap_unmarked, single, fifo, each]

theorem Boxes.holdsAccept_keepOffered (b : Boxes) : b.keepOffered.holdsAccept = b.holdsAccept := by
  unfold Boxes.holdsAccept
  rw [show b.keepOffered.answer = b.answer.map Held.unmarked from filterMap_unmarked b.answer, List.any_map]
  rfl

theorem Boxes.holdsAccept_of_acceptOffered {b : Boxes} (h : b.acceptOffered = true) : b.holdsAccept = true := by
  obtain ⟨x, held, accepts⟩ := List.any_eq_true.mp h
  exact List.any_eq_true.mpr ⟨x, held, (Bool.and_eq_true_iff.mp accepts).2⟩

namespace State

variable {s : State}

/-! ## The frame on offer (R165, R166) -/

/-- Nothing is offered while WITHDRAWN or in LOADING (R166, R173). -/
theorem offerable_of_silenced (h : s.link.state = .withdrawn ∨ s.startup.station = .loading) : s.offerable = [] := by
  have silent (box : Box) : s.mayOffer box = false := by
    rcases h with withdrawn | loading
    · exact Bool.and_eq_false_iff.mpr (.inr (by rw [withdrawn]; rfl))
    · exact Bool.and_eq_false_iff.mpr (.inl (by rw [loading]; rfl))
  exact List.filter_eq_nil_iff.mpr fun c _ => by rw [silent]; decide

theorem chooseOffer_of_offerable_nil (h : s.offerable = []) : s.chooseOffer = s := by
  unfold chooseOffer
  rw [h]
  cases s.transmit.offer <;> rfl

theorem chooseOffer_of_silenced (h : s.link.state = .withdrawn ∨ s.startup.station = .loading) : s.chooseOffer = s :=
  chooseOffer_of_offerable_nil (offerable_of_silenced h)

theorem abandoned_chooseOffer (s : State) : s.chooseOffer.transmit.abandoned = s.transmit.abandoned :=
  s.chooseOffer_only .abandoned (by decide)

/-- The choice leaves the score, the link state and the link's timers (R165). -/
theorem link_chooseOffer (s : State) : s.chooseOffer.link = s.link := by
  unfold chooseOffer
  split <;> rfl

theorem receive_chooseOffer (s : State) : s.chooseOffer.receive = s.receive := by
  unfold chooseOffer
  split <;> rfl

theorem stretch_chooseOffer (s : State) : s.chooseOffer.stretch = s.stretch := by
  unfold chooseOffer
  split <;> rfl

/-! ## Counting leaves the link (R141) -/

theorem link_bump (s : State) (c : Counter) (n : Nat) : (s.bump c n).link = s.link := by
  unfold bump
  dsimp only
  split <;> rfl

theorem link_count (s : State) (c : Counter) : (s.count c).link = s.link := s.link_bump c 1

theorem transmit_count (s : State) (c : Counter) : (s.count c).transmit = s.transmit := s.bump_transmit c 1

theorem frames_count (s : State) (c : Counter) (b : Box) : (s.count c).frames b = s.frames b :=
  frames_same (s.count_notes c (.box b) (by simp))

/-! ## The score (R165, R166) -/

theorem scoreSent_recovers (passive : s.link.state = .passive) (low : s.link.score - 1 < 96) :
    s.scoreSent = (s.setLink (s.link.score - 1) .active).clearFlag .linkPassive := if_pos ⟨passive, low⟩

theorem scoreSent_stays (h : s.link.state ≠ .passive ∨ 96 ≤ s.link.score - 1) :
    s.scoreSent = s.setLink (s.link.score - 1) s.link.state :=
  if_neg fun recovers => h.elim (· recovers.1) (Nat.not_le.mpr recovers.2)

/-- A SENT either lowers the score alone or makes a PASSIVE station ACTIVE as well (R166). -/
theorem scoreSent_cases (s : State) :
    (s.link.state = .passive ∧ s.scoreSent = (s.setLink (s.link.score - 1) .active).clearFlag .linkPassive) ∨
      s.scoreSent = s.setLink (s.link.score - 1) s.link.state := by
  by_cases recovers : s.link.state = .passive ∧ s.link.score - 1 < 96
  · exact .inl ⟨recovers.1, scoreSent_recovers recovers.1 recovers.2⟩
  · exact .inr (if_neg recovers)

theorem scoreFailed_withdraws (state : s.link.state ≠ .withdrawn) (high : 192 ≤ min 255 (s.link.score + 8)) :
    s.scoreFailed = s.withdraw (min 255 (s.link.score + 8)) := by
  unfold scoreFailed
  dsimp only
  split
  · next withdrawn => exact absurd withdrawn state
  · exact if_pos high
  · exact if_pos high

theorem scoreFailed_passes (active : s.link.state = .active) (enough : 96 ≤ min 255 (s.link.score + 8))
    (low : min 255 (s.link.score + 8) < 192) :
    s.scoreFailed = (s.setLink (min 255 (s.link.score + 8)) .passive).setFlag .linkPassive := by
  unfold scoreFailed
  rw [active]
  exact (if_neg (Nat.not_le.mpr low)).trans (if_pos enough)

theorem scoreFailed_stays (state : s.link.state ≠ .active ∨ min 255 (s.link.score + 8) < 96)
    (low : s.link.state = .withdrawn ∨ min 255 (s.link.score + 8) < 192) :
    s.scoreFailed = s.setLink (min 255 (s.link.score + 8)) s.link.state := by
  unfold scoreFailed
  dsimp only
  split
  · next withdrawn => rw [withdrawn]; rfl
  · next active =>
    rw [active] at state low ⊢
    exact (if_neg (Nat.not_le.mpr (low.resolve_left (by decide)))).trans
      (if_neg (Nat.not_le.mpr (state.resolve_left fun other => other rfl)))
  · next passive =>
    rw [passive] at low ⊢
    exact if_neg (Nat.not_le.mpr (low.resolve_left (by decide)))

/-- A FAILED withdraws the station, makes an ACTIVE one PASSIVE, or raises the score alone (R166). -/
theorem scoreFailed_cases (s : State) :
    (s.link.state ≠ .withdrawn ∧ s.scoreFailed = s.withdraw (min 255 (s.link.score + 8))) ∨
      (s.link.state = .active ∧
        s.scoreFailed = (s.setLink (min 255 (s.link.score + 8)) .passive).setFlag .linkPassive) ∨
      s.scoreFailed = s.setLink (min 255 (s.link.score + 8)) s.link.state := by
  by_cases low : s.link.state = .withdrawn ∨ min 255 (s.link.score + 8) < 192
  · by_cases stays : s.link.state ≠ .active ∨ min 255 (s.link.score + 8) < 96
    · exact .inr (.inr (scoreFailed_stays stays low))
    · obtain ⟨active, enough⟩ := not_or.mp stays
      have active := not_not.mp active
      exact .inr (.inl ⟨active, scoreFailed_passes active (Nat.not_lt.mp enough)
        (low.resolve_left (by rw [active]; decide))⟩)
  · obtain ⟨state, high⟩ := not_or.mp low
    exact .inl ⟨state, scoreFailed_withdraws state (Nat.not_lt.mp high)⟩

/-! ## The withdrawal (R166) -/

theorem withdraw_link_eq (s : State) (n : Nat) :
    (s.withdraw n).link = { s.link with score := n, state := .withdrawn, withdrawal := some 2000 } := link_count _ _

theorem withdraw_transmit (s : State) (n : Nat) :
    (s.withdraw n).transmit = { boxes := emptyBoxes, offer := none, abandoned := s.transmit.abandon } :=
  transmit_count _ _

theorem cell_withdraw (s : State) (n : Nat) (c : Counter) :
    (s.withdraw n).cell c = if Counter.withdrawals = c then (s.cell .withdrawals).add 1 else s.cell c :=
  cell_count _ .withdrawals c

/-! ## Resets (R180, R185) -/

theorem coldReset_chooseOffer (s : State) : s.coldReset.chooseOffer = s.coldReset := chooseOffer_of_silenced (.inr rfl)

theorem coldReset_eq (s : State) :
    s.coldReset = (State.afterReset s.pins s.pending).setAbandoned s.transmit.abandon := rfl

/-- With no outcome still to come, a reset leaves the reset state alone. -/
theorem coldReset_of_settled (h : s.transmit.abandon = []) : s.coldReset = State.afterReset s.pins s.pending := by
  rw [coldReset_eq, h]
  rfl

theorem coldReset_resetState (s : State) : ResetState s s.coldReset :=
  ⟨setAbandoned_only _ _, Notes.plain rfl rfl rfl⟩

end State
end Sys2Proof.Machine
end

section
/-! PROOFS. Every step keeps the link in its bounds (O57): its capacities, its silence, and the mailboxes in CONFLICT. -/

namespace Sys2Proof.Machine

open Sys2Proof

/-! ## The capacities (R164, R165, R169) -/

theorem length_replaceUpdate (new : Held) (l : List Held) : (replaceUpdate new l).length = l.length := by
  induction l with
  | nil => rfl
  | cons h hs ih =>
    unfold replaceUpdate
    split
    · rfl
    · exact congrArg (· + 1) ih

/-- A full SIGHT FIFO takes a frame in for one that goes. -/
theorem length_putSightFull {l : List Held} (full : 0 < l.length) (new : Held) :
    (putSightFull l new).length = l.length := by
  unfold putSightFull
  split
  · exact length_replaceUpdate new l
  · split
    · next some =>
      obtain ⟨x, held, update⟩ := List.any_eq_true.mp some
      rw [List.length_append, List.length_eraseP_of_mem held update, List.length_singleton]
      omega
    · rw [List.length_append, List.length_drop, List.length_singleton]
      omega

theorem Boxes.length_sight_put {b : Boxes} (h : b.sight.length ≤ 4) (box : Box) (x : Held) :
    (b.put box x).sight.length ≤ 4 := by
  cases box with
  | sight =>
    show (if b.sight.length < 4 then b.sight ++ [x] else putSightFull b.sight x).length ≤ 4
    split
    · next room => rwa [List.length_append, List.length_singleton]
    · next full => rwa [length_putSightFull (by omega)]
  | safe | hush | travel | demand | status | reading | answer => exact h

theorem Boxes.length_answer_put {b : Boxes} (h : b.answer.length ≤ 16) (box : Box) (x : Held) :
    (b.put box x).answer.length ≤ 16 := by
  cases box with
  | answer =>
    show (if b.answer.length < 16 then b.answer ++ [x] else b.answer).length ≤ 16
    split
    · next room => rwa [List.length_append, List.length_singleton]
    · exact h
  | safe | hush | sight | travel | demand | status | reading => exact h

namespace LinkBounded

variable {s t : State}

/-- An update of other parts; the mark of the frame on offer makes no FIFO longer. -/
theorem of_only {ps : List Part} (h : LinkBounded s) (only : Only ps s t) (queue : Part.queue ∉ ps := by decide)
    (boxes : Part.boxes ∉ ps := by decide) (score : Part.score ∉ ps := by decide) : LinkBounded t := by
  have queue : t.receive.queue = s.receive.queue := only .queue queue
  have score : t.link.score = s.link.score := only .score score
  have boxes : t.transmit.boxes.keepOffered = s.transmit.boxes.keepOffered := only .boxes boxes
  exact ⟨queue ▸ h.queue, (Boxes.held_length boxes .sight).trans_le h.sight,
    (Boxes.held_length boxes .answer).trans_le h.answer, score ▸ h.score⟩

theorem hold (h : LinkBounded s) (box : Box) (x : Held) : LinkBounded (s.hold box x) := by
  have queue : (s.hold box x).receive.queue = s.receive.queue := s.hold_only box x .queue (by decide)
  have score : (s.hold box x).link.score = s.link.score := s.hold_only box x .score (by decide)
  have boxes := s.hold_boxes box x
  exact ⟨queue ▸ h.queue, boxes ▸ Boxes.length_sight_put h.sight box x, boxes ▸ Boxes.length_answer_put h.answer box x,
    score ▸ h.score⟩

theorem post (h : LinkBounded s) (box : Box) (f : Frame) : LinkBounded (s.post box f) := by
  unfold State.post
  split
  · exact h
  · exact h.hold box _

/-- Nothing is held after a reset or a withdrawal. -/
theorem of_empty (queue : t.receive.queue.length ≤ 16) (boxes : t.transmit.boxes = emptyBoxes)
    (score : t.link.score ≤ 255) : LinkBounded t :=
  ⟨queue, by rw [boxes]; exact Nat.zero_le _, by rw [boxes]; exact Nat.zero_le _, score⟩

/-- An outcome takes at most the frame on offer out of its mailbox. -/
theorem settleOffer (h : LinkBounded s) (f : Held → Option Held) :
    LinkBounded (s.settleOffer (s.transmit.boxes.update f)) :=
  ⟨h.queue, (List.length_filterMap_le f _).trans h.sight, (List.length_filterMap_le f _).trans h.answer, h.score⟩

theorem scoreSent (h : LinkBounded s) : LinkBounded s.scoreSent := by
  have lower : s.link.score - 1 ≤ 255 := (Nat.sub_le _ _).trans h.score
  rcases s.scoreSent_cases with ⟨-, recovers⟩ | stays
  · rw [recovers]
    exact ⟨h.queue, h.sight, h.answer, lower⟩
  · rw [stays]
    exact ⟨h.queue, h.sight, h.answer, lower⟩

theorem scoreFailed (h : LinkBounded s) : LinkBounded s.scoreFailed := by
  have capped : min 255 (s.link.score + 8) ≤ 255 := Nat.min_le_left _ _
  rcases s.scoreFailed_cases with ⟨-, withdraws⟩ | ⟨-, passes⟩ | stays
  · have queue : s.scoreFailed.receive.queue = s.receive.queue := s.scoreFailed_only .queue (by decide)
    refine of_empty (queue ▸ h.queue) ?_ ?_
    · rw [withdraws, State.withdraw_transmit]
    · rw [withdraws, State.withdraw_link_eq]
      exact capped
  · rw [passes]
    exact ⟨h.queue, h.sight, h.answer, capped⟩
  · rw [stays]
    exact ⟨h.queue, h.sight, h.answer, capped⟩

/-- A RESET LINK empties the queue and the mailboxes, but for the frame that accepts it (R173, R177). -/
theorem linkReset (s : State) (f : Frame) :
    LinkBounded (((s.linkCleared f).clearFlag .linkPassive).clearFlag .linkWithdrawn) := by
  refine ⟨Nat.zero_le _, Nat.zero_le _, ?_, Nat.zero_le _⟩
  show (if s.transmit.boxes.answer.length < 16 then [freshHeld (answerFrame s f statusAccepted)] else []).length ≤ 16
  split <;> exact Nat.le_of_ble_eq_true rfl

theorem dequeue (h : LinkBounded s) : LinkBounded s.dequeue :=
  ⟨((List.drop_sublist 1 _).length_le).trans h.queue, h.sight, h.answer, h.score⟩

end LinkBounded

theorem Act.keeps_linkBounded {s t : State} (a : Act s t) (h : LinkBounded s) : LinkBounded t := by
  induction a with
  | refl => exact h
  | trans _ _ first second => exact second (first h)
  | quiet only => exact h.of_only only
  | post s box f => exact h.post box f
  | answer s held => exact h.hold .answer held
  | reselect s => exact h.of_only s.reselect_only
  | rederive s => exact h.of_only s.rederive_only
  | setSafe s q => exact h.of_only (s.setSafe_only q)
  | dropRemote s => exact h.of_only s.dropRemote_only
  | computeMix s afresh => exact h.of_only (s.computeMix_only afresh)
  | flag | list | peers | rule | tally => exact ⟨h.queue, h.sight, h.answer, h.score⟩

theorem Does.keeps_linkBounded {s t : State} (d : Does s t) (h : LinkBounded s) : LinkBounded t := by
  induction d with
  | act a => exact a.keeps_linkBounded h
  | trans _ _ first second => exact second (first h)
  | dequeue => exact h.dequeue
  | choose s => exact h.of_only s.chooseOffer_only
  | powerOn | fullReset => exact .of_empty (Nat.zero_le _) rfl (Nat.zero_le _)
  | safeCodes s => exact h.of_only ((s.setRegime_only .safe).append (State.takeTargets_only _ _ _))
  | conflict => exact ⟨h.queue, Nat.zero_le _, Nat.zero_le _, h.score⟩
  | steps s n => exact h.of_only (s.putChannel_only n _)
  | removes | keeps => exact h.settleOffer _
  | scoreSent => exact h.scoreSent
  | scoreFailed => exact h.scoreFailed
  | score s n bounded => exact ⟨h.queue, h.sight, h.answer, bounded h.score⟩
  | withdrawalEnds => exact ⟨h.queue, h.sight, h.answer, Nat.zero_le _⟩
  | queue s q bounded => exact ⟨bounded h.queue, h.sight, h.answer, h.score⟩
  | linkReset s f => exact .linkReset s f
  | pins | joins | runs | abandons | mark => exact ⟨h.queue, h.sight, h.answer, h.score⟩

/-! ## Silence while WITHDRAWN and in LOADING (R166, R173) -/

namespace QuietWhenSilenced

variable {s t : State}

/-- An update of other parts. -/
theorem of_only {ps : List Part} (h : QuietWhenSilenced s) (only : Only ps s t)
    (offer : Part.offer ∉ ps := by decide) (link : Part.linkState ∉ ps := by decide)
    (station : Part.station ∉ ps := by decide) : QuietWhenSilenced t := by
  have offer : t.transmit.offer = s.transmit.offer := only .offer offer
  have link : t.link.state = s.link.state := only .linkState link
  have station : t.startup.station = s.startup.station := only .station station
  unfold QuietWhenSilenced
  rw [offer, link, station]
  exact h

/-- The choice offers nothing while silenced. -/
theorem chooseOffer (h : QuietWhenSilenced s) : QuietWhenSilenced s.chooseOffer := by
  intro silenced
  have link : s.chooseOffer.link.state = s.link.state := s.chooseOffer_only .linkState (by decide)
  have station : s.chooseOffer.startup.station = s.startup.station := s.chooseOffer_only .station (by decide)
  rw [link, station] at silenced
  rw [State.chooseOffer_of_silenced silenced]
  exact h silenced

theorem scoreSent (h : QuietWhenSilenced s) : QuietWhenSilenced s.scoreSent := by
  rcases s.scoreSent_cases with ⟨-, recovers⟩ | stays
  · rw [recovers]
    exact fun silenced => h (silenced.imp_left nofun)
  · rw [stays]
    exact h

theorem scoreFailed (h : QuietWhenSilenced s) : QuietWhenSilenced s.scoreFailed := by
  rcases s.scoreFailed_cases with ⟨-, withdraws⟩ | ⟨-, passes⟩ | stays
  · rw [withdraws]
    exact fun _ => congrArg Transmit.offer (s.withdraw_transmit _)
  · rw [passes]
    exact fun silenced => h (silenced.imp_left nofun)
  · rw [stays]
    exact h

end QuietWhenSilenced

theorem Act.keeps_quietWhenSilenced {s t : State} (a : Act s t) (h : QuietWhenSilenced s) : QuietWhenSilenced t := by
  induction a with
  | refl => exact h
  | trans _ _ first second => exact second (first h)
  | quiet only => exact h.of_only only
  | post s box f => exact h.of_only (s.post_only box f)
  | answer s held => exact h.of_only (s.hold_only .answer held)
  | reselect s => exact h.of_only s.reselect_only
  | rederive s => exact h.of_only s.rederive_only
  | setSafe s q => exact h.of_only (s.setSafe_only q)
  | dropRemote s => exact h.of_only s.dropRemote_only
  | computeMix s afresh => exact h.of_only (s.computeMix_only afresh)
  | flag | list | peers | rule | tally => exact h

theorem Does.keeps_quietWhenSilenced {s t : State} (d : Does s t) (h : QuietWhenSilenced s) : QuietWhenSilenced t := by
  induction d with
  | act a => exact a.keeps_quietWhenSilenced h
  | trans _ _ first second => exact second (first h)
  | choose => exact h.chooseOffer
  | powerOn | fullReset | removes | keeps | linkReset => exact fun _ => rfl
  | joins s l loading => exact fun _ => h (.inr loading)
  | safeCodes s => exact h.of_only ((s.setRegime_only .safe).append (State.takeTargets_only _ _ _))
  | runs | conflict => exact fun silenced => h (silenced.imp_right nofun)
  | steps s n => exact h.of_only (s.putChannel_only n _)
  | scoreSent => exact h.scoreSent
  | scoreFailed => exact h.scoreFailed
  | withdrawalEnds s withdrawn => exact fun _ => h (.inl withdrawn)
  | dequeue | pins | abandons | score | queue | mark => exact h

/-! ## The mailboxes in CONFLICT (R164, R173) -/

/-- Every mailbox but STATUS and ANSWER is empty. -/
def Boxes.Reduced (b : Boxes) : Prop := ∀ box : Box, box ≠ .status → box ≠ .answer → b.held box = []

theorem Boxes.reduced_iff {b : Boxes} : b.Reduced ↔ b = { emptyBoxes with status := b.status, answer := b.answer } := by
  constructor
  · intro h
    have single {o : Option Held} (empty : o.toList = []) : o = none := Option.toList_eq_nil_iff.mp empty
    have demand : b.demand = tabulate fun _ => none := vector_ext_fin fun n => by
      rw [tabulate_get]
      exact single (h (.demand n) nofun nofun)
    have reading : b.reading = tabulate fun _ => none := vector_ext_fin fun n => by
      rw [tabulate_get]
      exact single (h (.reading n) nofun nofun)
    have safe := single (h .safe nofun nofun)
    have hush := single (h .hush nofun nofun)
    have sight : b.sight = [] := h .sight nofun nofun
    have travel := single (h .travel nofun nofun)
    cases b
    cases safe
    cases hush
    cases sight
    cases travel
    cases demand
    cases reading
    rfl
  · intro h box status answer
    rw [h]
    cases box with
    | status => exact absurd rfl status
    | answer => exact absurd rfl answer
    | demand n => exact congrArg Option.toList (tabulate_get _ n)
    | reading n => exact congrArg Option.toList (tabulate_get _ n)
    | safe | hush | sight | travel => rfl

theorem conflictMailboxes_iff {s : State} :
    ConflictMailboxes s ↔ (s.startup.station = .conflict → s.transmit.boxes.Reduced) := by
  simp only [ConflictMailboxes, Boxes.reduced_iff]

namespace Boxes.Reduced

variable {b c : Boxes}

theorem of_keepOffered (h : b.Reduced) (same : c.keepOffered = b.keepOffered) : c.Reduced :=
  fun box status answer => (Boxes.held_eq_nil_iff same box).mpr (h box status answer)

theorem put (h : b.Reduced) {box : Box} (kept : box = .status ∨ box = .answer) (x : Held) : (b.put box x).Reduced := by
  intro y status answer
  have other : y ≠ box := by
    rintro rfl
    exact kept.elim status answer
  rw [State.held_put_ne _ _ _ _ other]
  exact h y status answer

theorem update (h : b.Reduced) (f : Held → Option Held) : (b.update f).Reduced := by
  intro box status answer
  rw [Boxes.held_update, h box status answer]
  rfl

theorem emptyBoxes : Machine.emptyBoxes.Reduced := fun box _ _ => Boxes.held_emptyBoxes box

theorem onlyStatus (b : Boxes) : b.onlyStatus.Reduced := Boxes.reduced_iff.mpr rfl

end Boxes.Reduced

namespace ConflictMailboxes

variable {s t : State}

/-- An update that leaves the station, or is made outside CONFLICT. -/
theorem of_boxes {ps : List Part} (h : ConflictMailboxes s) (only : Only ps s t)
    (boxes : s.startup.station = .conflict → s.transmit.boxes.Reduced → t.transmit.boxes.Reduced)
    (station : Part.station ∉ ps := by decide) : ConflictMailboxes t := by
  have station : t.startup.station = s.startup.station := only .station station
  refine conflictMailboxes_iff.mpr fun conflict => ?_
  rw [station] at conflict
  exact boxes conflict (conflictMailboxes_iff.mp h conflict)

/-- An update of other parts. -/
theorem of_only {ps : List Part} (h : ConflictMailboxes s) (only : Only ps s t)
    (boxes : Part.boxes ∉ ps := by decide) (station : Part.station ∉ ps := by decide) : ConflictMailboxes t :=
  h.of_boxes only (fun _ reduced => reduced.of_keepOffered (only .boxes boxes)) station

/-- In CONFLICT only STATUS is kept of the content queued; an answer is queued another way (R164, log 18). -/
theorem post (h : ConflictMailboxes s) (box : Box) (f : Frame) : ConflictMailboxes (s.post box f) := by
  refine h.of_boxes (s.post_only box f) fun conflict reduced => ?_
  unfold State.post
  split
  · exact reduced
  · next kept =>
    have status : box = .status := not_not.mp fun other => kept ⟨conflict, other⟩
    rw [State.hold_boxes]
    exact reduced.put (.inl status) _

theorem answer (h : ConflictMailboxes s) (x : Held) : ConflictMailboxes (s.hold .answer x) := by
  refine h.of_boxes (s.hold_only .answer x) fun _ reduced => ?_
  rw [State.hold_boxes]
  exact reduced.put (.inr rfl) x

theorem settleOffer (h : ConflictMailboxes s) (f : Held → Option Held) :
    ConflictMailboxes (s.settleOffer (s.transmit.boxes.update f)) :=
  conflictMailboxes_iff.mpr fun conflict => (conflictMailboxes_iff.mp h conflict).update f

theorem scoreFailed (h : ConflictMailboxes s) : ConflictMailboxes s.scoreFailed := by
  refine h.of_boxes s.scoreFailed_only fun _ reduced => ?_
  rcases s.scoreFailed_cases with ⟨-, withdraws⟩ | ⟨-, passes⟩ | stays
  · rw [withdraws, State.withdraw_transmit]
    exact .emptyBoxes
  · rw [passes]
    exact reduced
  · rw [stays]
    exact reduced

end ConflictMailboxes

theorem Act.keeps_conflictMailboxes {s t : State} (a : Act s t) (h : ConflictMailboxes s) : ConflictMailboxes t := by
  induction a with
  | refl => exact h
  | trans _ _ first second => exact second (first h)
  | quiet only => exact h.of_only only
  | post s box f => exact h.post box f
  | answer s held => exact h.answer held
  | reselect s => exact h.of_only s.reselect_only
  | rederive s => exact h.of_only s.rederive_only
  | setSafe s q => exact h.of_only (s.setSafe_only q)
  | dropRemote s => exact h.of_only s.dropRemote_only
  | computeMix s afresh => exact h.of_only (s.computeMix_only afresh)
  | flag | list | peers | rule | tally => exact h

theorem Does.keeps_conflictMailboxes {s t : State} (d : Does s t) (h : ConflictMailboxes s) : ConflictMailboxes t := by
  induction d with
  | act a => exact a.keeps_conflictMailboxes h
  | trans _ _ first second => exact second (first h)
  | choose s => exact h.of_only s.chooseOffer_only
  | powerOn | fullReset | joins | runs => exact nofun
  | safeCodes s => exact h.of_only ((s.setRegime_only .safe).append (State.takeTargets_only _ _ _))
  | conflict s => exact conflictMailboxes_iff.mpr fun _ => .onlyStatus s.transmit.boxes
  | steps s n => exact h.of_only (s.putChannel_only n _)
  | removes | keeps => exact h.settleOffer _
  | scoreSent s => exact h.of_only s.scoreSent_only
  | scoreFailed => exact h.scoreFailed
  | linkReset s f => exact conflictMailboxes_iff.mpr fun _ => Boxes.reduced_iff.mpr rfl
  | dequeue | pins | abandons | score | withdrawalEnds | queue | mark => exact h

/-! ## The step -/

theorem step_keeps_linkBounded {s t : State} (h : LinkBounded s) (run : step s = .next t) : LinkBounded t := by
  rcases step_cases run with rfl | ⟨c, rest, run⟩
  · exact ⟨h.queue, h.sight, h.answer, h.score⟩
  · exact (exec_does run).keeps_linkBounded ⟨h.queue, h.sight, h.answer, h.score⟩

theorem step_keeps_quietWhenSilenced {s t : State} (h : QuietWhenSilenced s) (run : step s = .next t) :
    QuietWhenSilenced t := by
  rcases step_cases run with rfl | ⟨c, rest, run⟩
  · exact h
  · exact (exec_does run).keeps_quietWhenSilenced h

theorem step_keeps_conflictMailboxes {s t : State} (h : ConflictMailboxes s) (run : step s = .next t) :
    ConflictMailboxes t := by
  rcases step_cases run with rfl | ⟨c, rest, run⟩
  · exact h
  · exact (exec_does run).keeps_conflictMailboxes h

/-- Settles O57: each of the three conditions by what a step does (`Does`), for content queued, outcomes, resets and
reception, the only updates that reach the link's own fields. -/
theorem everyStepKeepsTheLinkInItsBounds : Obligations.EveryStepKeepsTheLinkInItsBounds :=
  ⟨fun _ _ => step_keeps_linkBounded, fun _ _ => step_keeps_quietWhenSilenced,
    fun _ _ => step_keeps_conflictMailboxes⟩

end Sys2Proof.Machine
end

section
/-! PROOFS. Content takes its place in its mailbox (O42). -/

namespace Sys2Proof.Machine

open Sys2Proof

/-! ## The SIGHT FIFO (R164) -/

theorem isUpdate_iff {f : Frame} : isUpdate f = true ↔ f.byte 0 % 8 = 2 := decide_eq_true_iff

/-- A frame seen in a mailbox stands there between what is held before it and what is held behind it. -/
theorem held_split {l : List Held} {before after : List Frame} {g : Frame}
    (h : l.map (·.frame) = before ++ g :: after) :
    ∃ front x back, l = front ++ x :: back ∧ front.map (·.frame) = before ∧ x.frame = g ∧
      back.map (·.frame) = after := by
  obtain ⟨front, rest, rfl, hfront, hrest⟩ := List.map_eq_append_iff.mp h
  obtain ⟨x, back, rfl, hx, hback⟩ := List.map_eq_cons_iff.mp hrest
  exact ⟨front, x, back, rfl, hfront, hx, hback⟩

/-- The oldest UPDATE of the new frame's sequence gives its place to the new frame (log 46). -/
theorem replaceUpdate_append {new x : Held} {front back : List Held} (update : isUpdate x.frame = true)
    (sequence : x.frame.byte 1 = new.frame.byte 1)
    (older : ∀ y ∈ front, ¬ (isUpdate y.frame = true ∧ y.frame.byte 1 = new.frame.byte 1)) :
    replaceUpdate new (front ++ x :: back) = front ++ new :: back := by
  induction front with
  | nil => exact if_pos (Bool.and_eq_true_iff.mpr ⟨update, decide_eq_true sequence⟩)
  | cons y ys ih =>
    have other : ¬ (isUpdate y.frame && decide (y.frame.byte 1 = new.frame.byte 1)) = true := fun same =>
      older y List.mem_cons_self ((Bool.and_eq_true_iff.mp same).imp_right of_decide_eq_true)
    exact (if_neg other).trans (congrArg (y :: ·) (ih fun z member => older z (List.mem_cons_of_mem y member)))

theorem putSightFull_replaces {new x : Held} {front back : List Held} (new_update : isUpdate new.frame = true)
    (update : isUpdate x.frame = true) (sequence : x.frame.byte 1 = new.frame.byte 1)
    (older : ∀ y ∈ front, ¬ (isUpdate y.frame = true ∧ y.frame.byte 1 = new.frame.byte 1)) :
    putSightFull (front ++ x :: back) new = front ++ new :: back := by
  have found : (front ++ x :: back).any
      (fun h => isUpdate h.frame && decide (h.frame.byte 1 = new.frame.byte 1)) = true :=
    List.any_eq_true.mpr ⟨x, by simp, Bool.and_eq_true_iff.mpr ⟨update, decide_eq_true sequence⟩⟩
  exact (if_pos (Bool.and_eq_true_iff.mpr ⟨new_update, found⟩)).trans (replaceUpdate_append update sequence older)

/-- No UPDATE of the new frame's sequence is queued, or the new frame is no UPDATE. -/
theorem putSightFull_of_other {new : Held} {l : List Held}
    (other : isUpdate new.frame = true → ∀ y ∈ l, isUpdate y.frame = true → y.frame.byte 1 ≠ new.frame.byte 1) :
    putSightFull l new = if l.any (fun h => isUpdate h.frame) then l.eraseP (fun h => isUpdate h.frame) ++ [new]
      else l.drop 1 ++ [new] := by
  refine if_neg fun replaces => ?_
  obtain ⟨new_update, found⟩ := Bool.and_eq_true_iff.mp replaces
  obtain ⟨y, member, same⟩ := List.any_eq_true.mp found
  obtain ⟨update, sequence⟩ := Bool.and_eq_true_iff.mp same
  exact other new_update y member update (of_decide_eq_true sequence)

theorem putSightFull_removes {new x : Held} {front back : List Held} (update : isUpdate x.frame = true)
    (older : ∀ y ∈ front, ¬ isUpdate y.frame = true)
    (other : isUpdate new.frame = true →
      ∀ y ∈ front ++ x :: back, isUpdate y.frame = true → y.frame.byte 1 ≠ new.frame.byte 1) :
    putSightFull (front ++ x :: back) new = front ++ back ++ [new] := by
  rw [putSightFull_of_other other, if_pos (List.any_eq_true.mpr ⟨x, by simp, update⟩),
    List.eraseP_append_right _ (by simpa using older),
    List.eraseP_cons_of_pos (p := fun h : Held => isUpdate h.frame) update]

theorem putSightFull_drops {new : Held} {l : List Held} (none : ∀ y ∈ l, ¬ isUpdate y.frame = true) :
    putSightFull l new = l.drop 1 ++ [new] := by
  rw [putSightFull_of_other fun _ y member update => absurd update (none y member),
    if_neg fun some => let ⟨y, member, update⟩ := List.any_eq_true.mp some; none y member update]

/-! ## The mailboxes -/

namespace Boxes

variable {b : Boxes} {box : Box}

/-- A single mailbox holds the newest content. -/
theorem held_put_single (sight : box ≠ .sight) (answer : box ≠ .answer) (x : Held) : (b.put box x).held box = [x] := by
  cases box with
  | sight => exact absurd rfl sight
  | answer => exact absurd rfl answer
  | demand n => exact congrArg Option.toList ((set_get b.demand n n (some x)).trans (if_pos rfl))
  | reading n => exact congrArg Option.toList ((set_get b.reading n n (some x)).trans (if_pos rfl))
  | safe | hush | travel | status => rfl

theorem supersedes_single (sight : box ≠ .sight) (answer : box ≠ .answer) :
    b.supersedes box = true ↔ b.held box ≠ [] := by
  have single (o : Option Held) : o.isSome = true ↔ o.toList ≠ [] := by cases o <;> simp
  cases box with
  | sight => exact absurd rfl sight
  | answer => exact absurd rfl answer
  | safe | hush | travel | demand | status | reading => exact single _

theorem held_put_sight_room (room : b.sight.length < 4) (x : Held) : (b.put .sight x).held .sight = b.sight ++ [x] :=
  if_pos room

theorem held_put_sight_full (full : 4 ≤ b.sight.length) (x : Held) :
    (b.put .sight x).held .sight = putSightFull b.sight x := if_neg (Nat.not_lt.mpr full)

theorem held_put_answer_room (room : b.answer.length < 16) (x : Held) :
    (b.put .answer x).held .answer = b.answer ++ [x] := if_pos room

theorem held_put_answer_full (full : 16 ≤ b.answer.length) (x : Held) : (b.put .answer x).held .answer = b.answer :=
  if_neg (Nat.not_lt.mpr full)

end Boxes

namespace State

variable {s : State} {b : Box}

/-- In CONFLICT content for another mailbox than STATUS is discarded (R164). -/
theorem post_discarded (conflict : s.startup.station = .conflict) (other : b ≠ .status) (f : Frame) : s.post b f = s :=
  if_pos ⟨conflict, other⟩

theorem post_held (kept : s.startup.station ≠ .conflict ∨ b = .status) (f : Frame) :
    s.post b f = s.hold b (freshHeld f) :=
  if_neg fun discarded => kept.elim (· discarded.1) discarded.2

/-- The mailboxes with new content, before its loss is counted. -/
def putBox (s : State) (b : Box) (x : Held) : State :=
  { s with transmit := { s.transmit with boxes := s.transmit.boxes.put b x } }

theorem putBox_only (s : State) (b : Box) (x : Held) : Only [.boxes] s (s.putBox b x) := by
  intro p hp
  cases p <;> first | rfl | exact ⟨rfl, rfl⟩ | exact ⟨rfl, rfl, rfl⟩ | contradiction

theorem putBox_notes (s : State) (b : Box) (x : Held) : Notes [.box b] s (s.putBox b x) := by
  intro n other
  cases n with
  | flag | counter => rfl
  | box y =>
    have ne : y ≠ b := fun same => other (by rw [same]; exact List.mem_cons_self)
    show (s.transmit.boxes.put b x).keepOffered.held y = s.transmit.boxes.keepOffered.held y
    rw [Boxes.held_map, Boxes.held_map, held_put_ne _ _ _ _ ne]

/-- Content that takes no held frame's place is all that changes. -/
theorem hold_of_room (room : s.transmit.boxes.supersedes b = false) (x : Held) : s.hold b x = s.putBox b x :=
  if_neg (by rw [room]; decide)

theorem hold_changes_of_room (room : s.transmit.boxes.supersedes b = false) (x : Held) :
    Changes [] [.box b] s (s.hold b x) := by
  rw [hold_of_room room]
  exact Changes.within (s.putBox_only b x) (s.putBox_notes b x)

/-- A frame lost is counted as superseded. -/
theorem hold_superseded (loses : s.transmit.boxes.supersedes b = true) (x : Held) :
    (s.hold b x).cell .superseded = (s.cell .superseded).add 1 := by
  have counted : s.hold b x = (s.putBox b x).count .superseded := if_pos loses
  rw [counted, cell_count, if_pos rfl]
  rfl

end State

/-- Settles O42: content that is kept is held by `Boxes.put`, and a mailbox that `Boxes.supersedes` counts the loss. -/
theorem contentTakesItsPlaceInItsMailbox : Obligations.ContentTakesItsPlaceInItsMailbox := by
  intro s b f t old update
  refine ⟨fun conflict other => State.post_discarded conflict other f, fun kept => ?_⟩
  have held : t = s.hold b (freshHeld f) := State.post_held kept f
  have frames : t.frames b = ((s.transmit.boxes.put b (freshHeld f)).held b).map (·.frame) := by
    rw [held, State.frames_hold]
  have length : (s.transmit.boxes.held b).length = old.length := (List.length_map _).symm
  refine ⟨fun sight answer => ⟨?_, fun empty => ?_, fun some => ?_⟩, ?_, ?_, ?_, ?_, ?_⟩
  · rw [frames, Boxes.held_put_single sight answer]
    rfl
  · rw [held]
    refine State.hold_changes_of_room (Bool.eq_false_iff.mpr fun loses => ?_) _
    exact (Boxes.supersedes_single sight answer).mp loses (List.map_eq_nil_iff.mp empty)
  · rw [held]
    exact State.hold_superseded ((Boxes.supersedes_single sight answer).mpr fun none => some (by
      show (s.transmit.boxes.held b).map (·.frame) = []
      rw [none]
      rfl)) _
  · rintro rfl room
    have room : s.transmit.boxes.sight.length < 4 := length.trans_lt room
    refine ⟨?_, held ▸ State.hold_changes_of_room (b := .sight) (decide_eq_false (Nat.not_le.mpr room)) _⟩
    rw [frames, Boxes.held_put_sight_room room, List.map_append]
    rfl
  · rintro rfl room
    have room : s.transmit.boxes.answer.length < 16 := length.trans_lt room
    refine ⟨?_, held ▸ State.hold_changes_of_room (b := .answer) (decide_eq_false (Nat.not_le.mpr room)) _⟩
    rw [frames, Boxes.held_put_answer_room room, List.map_append]
    rfl
  · rintro rfl full
    have full : 16 ≤ s.transmit.boxes.answer.length := full.trans_eq length.symm
    exact ⟨by rw [frames, Boxes.held_put_answer_full full]; rfl,
      held ▸ State.hold_superseded (b := .answer) (decide_eq_true full) _⟩
  · rintro rfl full
    have full : 4 ≤ s.transmit.boxes.sight.length := full.trans_eq length.symm
    rw [frames, Boxes.held_put_sight_full full]
    have seen {l : List Held} {y : Held} (member : y ∈ l) : y.frame ∈ l.map (·.frame) := List.mem_map_of_mem member
    refine ⟨held ▸ State.hold_superseded (b := .sight) (decide_eq_true full) _,
      fun before g after split newUpdate isUpd same older => ?_,
      fun before g after split isUpd older other => ?_, fun none => ?_⟩
    · obtain ⟨front, x, back, sight, rfl, rfl, rfl⟩ := held_split split
      have sight : s.transmit.boxes.sight = front ++ x :: back := sight
      rw [sight, putSightFull_replaces (isUpdate_iff.mpr newUpdate) (isUpdate_iff.mpr isUpd) same
        fun y member twin => older _ (seen member) (twin.imp_left isUpdate_iff.mp), List.map_append]
      rfl
    · obtain ⟨front, x, back, sight, rfl, rfl, rfl⟩ := held_split split
      have sight : s.transmit.boxes.sight = front ++ x :: back := sight
      have queued {y : Held} (member : y ∈ front ++ x :: back) : y.frame ∈ old := by
        rw [← sight] at member
        exact seen member
      rw [sight, putSightFull_removes (isUpdate_iff.mpr isUpd)
        (fun y member upd => older _ (seen member) (isUpdate_iff.mp upd))
        (fun newUpdate y member upd => other (isUpdate_iff.mp newUpdate) _ (queued member) (isUpdate_iff.mp upd)),
        List.map_append, List.map_append]
      rfl
    · have plain (y : Held) (member : y ∈ s.transmit.boxes.sight) : ¬ isUpdate y.frame = true :=
        fun upd => none _ (seen member) (isUpdate_iff.mp upd)
      rw [putSightFull_drops plain, List.map_append, List.map_drop]
      rfl
  · exact Changes.within (s.post_only b f) (s.post_notes b f)

end Sys2Proof.Machine
end

section
/-! PROOFS. The choice of the frame on offer (O43). -/

namespace Sys2Proof.Machine

open Sys2Proof

/-! ## The candidates (R165, R166) -/

theorem mem_candidate {x box : Box} {h : Held} {o : Option Held} :
    (x, h) ∈ candidate box o ↔ x = box ∧ o = some h := by
  cases o with
  | none => simp [candidate]
  | some k => simp [candidate, eq_comm]

/-- The frame that competes for a mailbox is the oldest it holds. -/
theorem Boxes.mem_candidates {b : Boxes} {x : Box} {h : Held} :
    (x, h) ∈ b.candidates ↔ (b.held x).head? = some h := by
  simp only [Boxes.candidates, List.mem_append, List.mem_flatMap, List.mem_finRange, true_and, mem_candidate]
  cases x <;> simp [Boxes.held]

theorem stationOffers_iff {st : Station} {box : Box} :
    stationOffers st box = true ↔ st ≠ .loading ∧ (st = .conflict → box = .status ∨ box = .answer) := by
  cases st <;> simp [stationOffers]

theorem linkOffers_iff {l : LinkState} {accept : Bool} {box : Box} : linkOffers l accept box = true ↔
    l ≠ .withdrawn ∧ (l = .passive → (∀ n, box ≠ .reading n) ∧ (box = .answer → accept = true)) := by
  cases l with
  | active => simp [linkOffers]
  | withdrawn => simp [linkOffers]
  | passive => cases box <;> simp [linkOffers, Box.heldBack]

/-! ## The lowest identifier (R165) -/

theorem lowestId_eq_none {l : List (Box × Held)} : lowestId l = none ↔ l = [] := by
  cases l with
  | nil => exact iff_of_true rfl rfl
  | cons c cs =>
    refine iff_of_false ?_ nofun
    unfold lowestId
    split
    · nofun
    · split <;> nofun

theorem lowestId_lowest {l : List (Box × Held)} {y : Box × Held} (h : lowestId l = some y) :
    y ∈ l ∧ ∀ z ∈ l, y.2.frame.id ≤ z.2.frame.id := by
  induction l generalizing y with
  | nil => cases h
  | cons c cs ih =>
    unfold lowestId at h
    split at h
    · next alone =>
      cases h
      rw [lowestId_eq_none.mp alone]
      exact ⟨List.mem_cons_self, fun z member => by rw [List.mem_singleton.mp member]; exact BitVec.le_refl _⟩
    · next d lowest =>
      obtain ⟨member, least⟩ := ih lowest
      split at h
      · next lower =>
        cases h
        refine ⟨List.mem_cons_of_mem _ member, List.forall_mem_cons.mpr ⟨BitVec.le_of_lt lower, least⟩⟩
      · next higher =>
        cases h
        refine ⟨List.mem_cons_self, List.forall_mem_cons.mpr ⟨BitVec.le_refl _, fun z other => ?_⟩⟩
        exact BitVec.le_trans (BitVec.not_lt.mp higher) (least z other)

namespace State

variable {s : State}

theorem chooseOffer_chooses (free : s.transmit.offer = none) {y : Box × Held} (h : lowestId s.offerable = some y) :
    s.chooseOffer.transmit.offer = some y.2.frame := by
  unfold chooseOffer
  rw [free, h]

/-- A choice that leaves nothing on offer had nothing to offer. -/
theorem offerable_of_unoffered (h : s.chooseOffer.transmit.offer = none) : s.chooseOffer.offerable = [] := by
  have free : s.transmit.offer = none := Option.eq_none_iff_forall_ne_some.mpr fun f some => by
    rw [s.chooseOffer_offer f some, some] at h
    cases h
  cases chosen : lowestId s.offerable with
  | none =>
    have empty := lowestId_eq_none.mp chosen
    rw [chooseOffer_of_offerable_nil empty]
    exact empty
  | some y =>
    rw [chooseOffer_chooses free chosen] at h
    cases h

end State

/-! ## Every event ends with a choice (log 13) -/

/-- The outcome of a command is a state left by a choice. -/
def EndsWithChoice (o : Host.Outcome State Fault Refusal) : Prop := ∃ u : State, o = finish u

namespace EndsWithChoice

theorem chosen (u : State) : EndsWithChoice (finish u) := ⟨u, rfl⟩

theorem either {c : Prop} [Decidable c] {a b : Host.Outcome State Fault Refusal} (h : EndsWithChoice a)
    (k : EndsWithChoice b) : EndsWithChoice (if c then a else b) := by split <;> assumption

theorem serve (s : State) (r : Request) (act : State → Frame → State) : EndsWithChoice (s.serve r act) := by
  unfold State.serve
  split
  · exact chosen _
  · exact either (chosen _) (chosen _)

end EndsWithChoice

open EndsWithChoice in
theorem exec_endsWithChoice (c : Instr) (s : State) : EndsWithChoice (exec c s) := by
  by_cases plain : plainCommand c = true
  · obtain ⟨-, t, -, -, ends⟩ := exec_plain c s plain
    exact ⟨t, ends⟩
  · cases c <;> first | exact absurd rfl plain | simp only [exec]
    case powerOnReset => exact chosen _
    case loadingComplete => exact either (chosen _) (chosen _)
    case joiningTimerExpiry => exact either (chosen _) (chosen _)
    case pinEdge =>
      unfold execPinEdge
      refine either (chosen _) ?_
      dsimp only
      split <;> exact chosen _
    case intervalTimerExpiry => exact either (chosen _) (chosen _)
    case sent =>
      unfold execSent
      split
      · exact either (chosen _) (chosen _)
      · exact chosen _
      · exact chosen _
    case arbitrationLost =>
      unfold execArbitrationLost
      split <;> exact chosen _
    case failed =>
      unfold execFailed
      dsimp only
      split
      · exact either (chosen _) (chosen _)
      · exact chosen _
      · exact chosen _
    case withdrawalTimerExpiry => exact either (chosen _) (chosen _)
    case frameReceived => exact either (chosen _) (chosen _)
    case resetLink => exact serve _ _ _
    case resetAll => exact serve _ _ _
    case fullResetCarriedOut => exact either (chosen _) (chosen _)

/-- Settles O43: the end of each event by `exec_endsWithChoice`, the candidates by `Boxes.mem_candidates`, the choice by
`lowestId_lowest`. -/
theorem theLowestIdentifierIsOffered : Obligations.TheLowestIdentifierIsOffered := by
  refine ⟨fun c s t run unoffered => ?_, fun s b h => ?_, fun s free => ⟨State.chooseOffer_of_offerable_nil,
    fun x member => ?_, Changes.choice s⟩⟩
  · obtain ⟨u, ends⟩ := exec_endsWithChoice c s
    cases run.symm.trans ends
    exact State.offerable_of_unoffered unoffered
  · rw [State.offerable, List.mem_filter, Boxes.mem_candidates, State.mayOffer, Bool.and_eq_true, stationOffers_iff,
      linkOffers_iff, Boxes.holdsAccept, List.any_eq_true, and_assoc]
  · cases chosen : lowestId s.offerable with
    | none =>
      rw [lowestId_eq_none.mp chosen] at member
      cases member
    | some y =>
      obtain ⟨candidate, least⟩ := lowestId_lowest chosen
      exact ⟨y, candidate, State.chooseOffer_chooses free chosen, least⟩

end Sys2Proof.Machine
end

section
/-! PROOFS. The outcomes of a frame on offer: SENT (O44). -/

namespace Sys2Proof.Machine

open Sys2Proof

/-- An update whose list names a part that it leaves as it was. -/
theorem Only.strike {ps : List Part} {p : Part} {s t : State} (h : Only ps s t) (same : p.same s t) :
    Only (ps.filter (· ≠ p)) s t := by
  intro q outside
  by_cases struck : q = p
  · exact struck ▸ same
  · exact h q fun listed => outside (List.mem_filter.mpr ⟨listed, decide_eq_true struck⟩)

namespace State

variable {s u : State}

/-! ## The frame on offer settled (R165) -/

theorem settleOffer_only (s : State) (b : Boxes) : Only [.boxes, .offer] s (s.settleOffer b) := by
  intro p hp
  cases p <;> first | rfl | exact ⟨rfl, rfl⟩ | exact ⟨rfl, rfl, rfl⟩ | contradiction

/-- The frame that was on offer has left its mailbox; newer content in its place stays. -/
theorem frames_removeOffered (s : State) (b : Box) : (s.settleOffer s.transmit.boxes.removeOffered).frames b =
    ((s.transmit.boxes.held b).filter fun h => !h.offered).map (·.frame) := by
  have left (l : List Held) : l.filterMap (fun h => if h.offered then none else some h) = l.filter (!·.offered) := by
    induction l with
    | nil => rfl
    | cons h hs ih => cases offered : h.offered <;> simp [offered, ih]
  exact congrArg (List.map (·.frame)) ((Boxes.held_update _ _ b).trans (left _))

/-! ## Resets that an outcome brings (R177, R185) -/

/-- What an event did before its reset reaches only the pins and the waiting commands of the reset state. -/
theorem coldReset_of_only {ps : List Part} (only : Only ps s u) (settled : u.transmit.abandon = [])
    (pins : Part.pins ∉ ps := by decide) (pending : Part.pending ∉ ps := by decide) :
    u.coldReset = State.afterReset s.pins s.pending := by
  rw [coldReset_of_settled settled, show u.pins = s.pins from only .pins pins,
    show u.pending = s.pending from only .pending pending]

theorem resetState_of_only {ps : List Part} (only : Only ps s u) (pins : Part.pins ∉ ps := by decide)
    (pending : Part.pending ∉ ps := by decide) : ResetState s u.coldReset := by
  obtain ⟨parts, notes⟩ := u.coldReset_resetState
  rw [show u.pins = s.pins from only .pins pins, show u.pending = s.pending from only .pending pending] at parts notes
  exact ⟨parts, notes⟩

theorem finish_resetIf_true (u : State) : finish (u.resetIf true) = .next u.coldReset :=
  congrArg Host.Outcome.next u.coldReset_chooseOffer

/-! ## What a SENT counts (R165) -/

theorem countSent_framesSent (s : State) (f : Frame) :
    (s.countSent f).cell .framesSent = (s.cell .framesSent).add 1 := by
  unfold countSent
  dsimp only
  split
  · rw [cell_count, if_neg (by decide), cell_count, if_pos rfl]
  · rw [cell_count, if_pos rfl]

theorem countSent_hushSent (s : State) (f : Frame) :
    (s.countSent f).cell .hushSent = if f.kind = 2 then (s.cell .hushSent).add 1 else s.cell .hushSent := by
  unfold countSent
  dsimp only
  split
  · rw [cell_count, if_pos rfl, cell_count, if_neg (by decide)]
  · rw [cell_count, if_neg (by decide)]

theorem link_countSent (s : State) (f : Frame) : (s.countSent f).link = s.link := by
  unfold countSent
  dsimp only
  split
  · rw [link_count, link_count]
  · rw [link_count]

theorem transmit_countSent (s : State) (f : Frame) : (s.countSent f).transmit = s.transmit := by
  unfold countSent
  dsimp only
  split
  · rw [transmit_count, transmit_count]
  · rw [transmit_count]

theorem transmit_scoreSent (s : State) : s.scoreSent.transmit = s.transmit := by
  rcases s.scoreSent_cases with ⟨-, recovers⟩ | stays
  · rw [recovers]
    rfl
  · rw [stays]
    rfl

/-! ## What a SENT counts and scores -/

/-- The counts of a SENT for `f`, the score lowered by 1, and the link state that follows it (R165, R166). -/
structure SentScored (f : Frame) (s t : State) : Prop where
  sent : t.cell .framesSent = (s.cell .framesSent).add 1
  hush : t.cell .hushSent = (if f.kind = 2 then (s.cell .hushSent).add 1 else s.cell .hushSent)
  score : t.link.score = s.link.score - 1
  recovers : s.link.state = .passive → s.link.score - 1 < 96 → t.link.state = .active ∧ t.flag .linkPassive = false
  stays : s.link.state ≠ .passive ∨ 96 ≤ s.link.score - 1 →
    t.link.state = s.link.state ∧ t.flag .linkPassive = s.flag .linkPassive
  cells : ∀ c : Counter, c ≠ .framesSent → c ≠ .hushSent → t.cell c = s.cell c
  flags : ∀ g : Flag, g ≠ .linkPassive → g ≠ .counterRollover → t.flag g = s.flag g

theorem countSent_scored (s : State) (f : Frame) : SentScored f s (s.countSent f).scoreSent := by
  have counts := s.countSent_notes f
  have scores := (s.countSent f).scoreSent_notes
  have cell (c : Counter) : (s.countSent f).scoreSent.cell c = (s.countSent f).cell c := scores (.counter c) (by simp)
  have link := s.link_countSent f
  have state : (s.countSent f).link.state = s.link.state := congrArg Link.state link
  have passive : (s.countSent f).flag .linkPassive = s.flag .linkPassive := counts (.flag .linkPassive) (by decide)
  refine ⟨(cell _).trans (s.countSent_framesSent f), (cell _).trans (s.countSent_hushSent f), ?_, fun state low => ?_,
    fun high => ?_, fun c sent hush => ?_, fun g other rollover => ?_⟩
  · rw [← link]
    rcases (s.countSent f).scoreSent_cases with ⟨-, recovers⟩ | stays
    · rw [recovers]
      rfl
    · rw [stays]
      rfl
  · rw [← link] at state low
    rw [scoreSent_recovers state low]
    exact ⟨rfl, flag_writeFlag_same _ _ _⟩
  · rw [← link] at high
    rw [scoreSent_stays high]
    exact ⟨state, passive⟩
  · exact (cell c).trans (counts (.counter c) (by simp [sent, hush]))
  · exact (scores (.flag g) (by simp [other])).trans (counts (.flag g) (by simp [rollover]))

theorem SentScored.chooseOffer {f : Frame} {t : State} (h : SentScored f s t) : SentScored f s t.chooseOffer := by
  obtain ⟨sent, hush, score, recovers, stays, cells, flags⟩ := h
  refine ⟨?_, ?_, ?_, ?_, ?_, ?_, ?_⟩ <;> simp only [cell_chooseOffer, link_chooseOffer, flag_chooseOffer] <;> assumption

/-! ## SENT by what is outstanding (R165, log 14) -/

/-- The frame on offer removed, counted and scored. -/
def sentOffered (s : State) (f : Frame) : State :=
  ((s.settleOffer s.transmit.boxes.removeOffered).countSent f).scoreSent

/-- The outcome of an abandoned frame counted and scored, outside LOADING. -/
def sentAbandoned (s : State) (f : Frame) (rest : List Frame) : State := ((s.setAbandoned rest).countSent f).scoreSent

theorem exec_sent_offered {f : Frame} (abandoned : s.transmit.abandoned = []) (offer : s.transmit.offer = some f) :
    exec .sent s = finish ((s.sentOffered f).resetIf s.transmit.boxes.acceptOffered) := by
  show execSent s = _
  unfold execSent
  rw [abandoned, offer]
  rfl

theorem exec_sent_abandoned {f : Frame} {rest : List Frame} (abandoned : s.transmit.abandoned = f :: rest)
    (station : s.startup.station ≠ .loading) : exec .sent s = finish (s.sentAbandoned f rest) := by
  show execSent s = _
  unfold execSent
  rw [abandoned]
  exact if_neg station

theorem exec_sent_loading {f : Frame} {rest : List Frame} (abandoned : s.transmit.abandoned = f :: rest)
    (station : s.startup.station = .loading) : exec .sent s =
      finish (s.scoreInLoading ((s.setAbandoned rest).countSent f) (s.link.score - 1)) := by
  show execSent s = _
  unfold execSent
  rw [abandoned]
  exact if_pos station

theorem exec_sent_idle (abandoned : s.transmit.abandoned = []) (offer : s.transmit.offer = none) :
    exec .sent s = finish s := by
  show execSent s = _
  unfold execSent
  rw [abandoned, offer]

theorem sentOffered_only (s : State) (f : Frame) :
    Only [.boxes, .offer, .counters, .flagBits, .alert, .score, .linkState] s (s.sentOffered f) :=
  ((s.settleOffer_only _).append (countSent_only _ f)).seq (scoreSent_only _) (by decide) (by decide)

theorem sentOffered_transmit (s : State) (f : Frame) : (s.sentOffered f).transmit =
    (s.settleOffer s.transmit.boxes.removeOffered).transmit := by
  rw [sentOffered, transmit_scoreSent, transmit_countSent]

theorem sentAbandoned_only (s : State) (f : Frame) (rest : List Frame) :
    Only [.abandoned, .counters, .flagBits, .alert, .score, .linkState] s (s.sentAbandoned f rest) :=
  ((s.setAbandoned_only rest).append (countSent_only _ f)).seq (scoreSent_only _) (by decide) (by decide)

theorem sentAbandoned_notes (s : State) (f : Frame) (rest : List Frame) :
    Notes (.flag .linkPassive :: sentNotes) s (s.sentAbandoned f rest) :=
  ((Notes.plain rfl rfl rfl : Notes sentNotes s (s.setAbandoned rest)).trans (countSent_notes _ f)).seq
    (scoreSent_notes _) (by simp) (by simp)

/-! ## An outcome in LOADING (R163, log 14) -/

/-- The link state stays beside the flags. -/
theorem scoreInLoading_keeps {ps : List Part} {t : State} (n : Nat) (h : Only (.flagBits :: .alert :: ps) s t) :
    Only ((Part.score :: .linkState :: ps).filter (· ≠ .linkState)) s (s.scoreInLoading t n) :=
  Only.strike (p := .linkState) (scoreInLoading_only n h) rfl

theorem scoreInLoading_notes {ns ms : List Note} {t : State} (n : Nat) (h : Notes ns s t)
    (flags : ∀ m ∈ ns, m ∉ ms → ∃ f, m = .flag f) : Notes ms s (s.scoreInLoading t n) := by
  intro m outside
  cases m with
  | flag f => rfl
  | counter c =>
    refine h (.counter c) fun listed => ?_
    obtain ⟨f, same⟩ := flags _ listed outside
    cases same
  | box b =>
    refine h (.box b) fun listed => ?_
    obtain ⟨f, same⟩ := flags _ listed outside
    cases same

end State

/-- Settles O44: the frame on offer, an abandoned frame outside and in LOADING, and nothing outstanding, each by the one
state the event makes before its choice. -/
theorem sentRemovesTheFrame : Obligations.SentRemovesTheFrame := by
  intro s counted
  have counts {f : Frame} {t : State} (h : State.SentScored f s t) : counted f t :=
    ⟨h.sent, h.hush, h.score, h.recovers, h.stays, h.cells, h.flags⟩
  refine ⟨fun f abandoned offer => ⟨fun accept => ?_, fun accept => ?_⟩, fun f rest abandoned station => ?_,
    fun f rest abandoned station => ?_, fun abandoned offer => ?_⟩
  · have scored : State.SentScored f s (s.sentOffered f) := by
      obtain ⟨sent, hush, score, recovers, stays, cells, flags⟩ :=
        (s.settleOffer s.transmit.boxes.removeOffered).countSent_scored f
      exact ⟨sent, hush, score, recovers, stays, cells, flags⟩
    refine ⟨_, (State.exec_sent_offered abandoned offer).trans (by rw [accept]; rfl), counts scored.chooseOffer,
      fun b => ?_, ?_⟩
    · rw [State.frames_chooseOffer, State.frames, State.sentOffered_transmit]
      exact s.frames_removeOffered b
    · exact (s.sentOffered_only f).trans ((State.chooseOffer_only _).mono (by decide))
  · rw [State.exec_sent_offered abandoned offer, accept, State.finish_resetIf_true,
      State.coldReset_of_only (s.sentOffered_only f) ?_]
    rw [State.sentOffered_transmit]
    exact congrArg (· ++ []) abandoned
  · have scored : State.SentScored f s (s.sentAbandoned f rest) := by
      obtain ⟨sent, hush, score, recovers, stays, cells, flags⟩ := (s.setAbandoned rest).countSent_scored f
      exact ⟨sent, hush, score, recovers, stays, cells, flags⟩
    refine ⟨_, State.exec_sent_abandoned abandoned station, counts scored.chooseOffer, ?_, ?_⟩
    · rw [State.abandoned_chooseOffer, State.sentAbandoned, State.transmit_scoreSent, State.transmit_countSent]
      rfl
    · exact Changes.ends (s.sentAbandoned_only f rest) (s.sentAbandoned_notes f rest)
  · have counts := (s.setAbandoned rest).countSent_only f
    have notes := (s.setAbandoned rest).countSent_notes f
    refine ⟨_, State.exec_sent_loading abandoned station, ?_, ?_, ?_, ?_, ?_⟩
    · rw [State.link_chooseOffer]
      rfl
    · rw [State.abandoned_chooseOffer]
      exact congrArg Transmit.abandoned ((s.setAbandoned rest).transmit_countSent f)
    · rw [State.cell_chooseOffer]
      exact (s.setAbandoned rest).countSent_framesSent f
    · rw [State.cell_chooseOffer]
      exact (s.setAbandoned rest).countSent_hushSent f
    · exact Changes.ends (State.scoreInLoading_keeps (ps := [.abandoned, .counters]) _
        ((s.setAbandoned_only rest).seq counts (by decide) (by decide)))
        (State.scoreInLoading_notes _ ((Notes.plain rfl rfl rfl).trans notes) (by simp))
  · exact ⟨_, State.exec_sent_idle abandoned offer, Changes.choice s⟩

end Sys2Proof.Machine
end

section
/-! PROOFS. The outcomes of a frame on offer: ARBITRATION_LOST, FAILED and the withdrawal (O45). -/

namespace Sys2Proof.Machine

open Sys2Proof

namespace State

variable {s t : State}

/-! ## The frame on offer stays (R165) -/

/-- A frame that stays loses its mark alone. -/
theorem keepOffered_only (s : State) : Only [.offer] s (s.settleOffer s.transmit.boxes.keepOffered) :=
  Only.strike (p := .boxes) (s.settleOffer_only _) s.transmit.boxes.keepOffered_keepOffered

theorem keepOffered_notes (s : State) : Notes [] s (s.settleOffer s.transmit.boxes.keepOffered) := by
  intro n _
  cases n with
  | flag | counter => rfl
  | box b => exact congrArg (·.held b) s.transmit.boxes.keepOffered_keepOffered

/-! ## What a FAILED counts and scores (R165, R166) -/

/-- The failure counted and scored. -/
def failure (s : State) : State := (s.count .sendFailures).scoreFailed

/-- The effect of a FAILED that withdraws nothing: the failure counted, the score raised by 8, the link state that follows
it, and every frame still held. -/
structure FailureScored (s t : State) : Prop where
  score : t.link.score = min 255 (s.link.score + 8)
  failed : t.cell .sendFailures = (s.cell .sendFailures).add 1
  frames : ∀ b, t.frames b = s.frames b
  passes : s.link.state = .active → 96 ≤ min 255 (s.link.score + 8) →
    t.link.state = .passive ∧ t.flag .linkPassive = true
  stays : s.link.state ≠ .active ∨ min 255 (s.link.score + 8) < 96 →
    t.link.state = s.link.state ∧ t.flag .linkPassive = s.flag .linkPassive
  notes : Notes [.counter .sendFailures, .flag .linkPassive, .flag .counterRollover] s t

/-- The effect of a FAILED that withdraws the station (R166). -/
structure FailureWithdraws (s t : State) : Prop where
  score : t.link.score = min 255 (s.link.score + 8)
  state : t.link.state = .withdrawn
  timer : t.link.withdrawal = some 2000
  failed : t.cell .sendFailures = (s.cell .sendFailures).add 1
  counted : t.cell .withdrawals = (s.cell .withdrawals).add 1
  withdrawn : t.flag .linkWithdrawn = true
  passive : t.flag .linkPassive = false
  frames : ∀ b, t.frames b = []
  offer : t.transmit.offer = none

/-- Below 192 a FAILED reaches no mailbox and no timer. -/
theorem scoreFailed_low (low : s.link.state = .withdrawn ∨ min 255 (s.link.score + 8) < 192) :
    Only [.score, .linkState, .flagBits, .alert] s s.scoreFailed ∧ Notes [.flag .linkPassive] s s.scoreFailed ∧
      s.scoreFailed.transmit = s.transmit ∧ s.scoreFailed.link.score = min 255 (s.link.score + 8) := by
  rcases s.scoreFailed_cases with ⟨state, withdraws⟩ | ⟨-, passes⟩ | stays
  · exfalso
    have score := congrArg (·.link.state) withdraws
    by_cases active : s.link.state = .active ∧ 96 ≤ min 255 (s.link.score + 8)
    · rw [scoreFailed_passes active.1 active.2 (low.resolve_left state), withdraw_link_eq] at score
      cases score
    · rw [scoreFailed_stays ((not_and_or.mp active).imp_right Nat.not_le.mp) low, withdraw_link_eq] at score
      exact state score
  · rw [passes]
    exact ⟨((s.setLink_only _ _).append (writeFlag_only _ _ _)).mono (by decide),
      (s.setLink_notes _ _).seq (writeFlag_notes _ _ _) (by simp) (by simp), rfl, rfl⟩
  · rw [stays]
    exact ⟨(s.setLink_only _ _).mono (by decide), (s.setLink_notes _ _).mono (by simp), rfl, rfl⟩

theorem failure_scored (low : s.link.state = .withdrawn ∨ min 255 (s.link.score + 8) < 192) :
    FailureScored s s.failure ∧ s.failure.transmit = s.transmit ∧
      Only [.counters, .flagBits, .alert, .score, .linkState] s s.failure := by
  have link := s.link_count .sendFailures
  have count_notes := s.count_notes .sendFailures
  obtain ⟨only, notes, transmit, score⟩ := scoreFailed_low (s := s.count .sendFailures) (by rw [link]; exact low)
  rw [link] at score
  have transmit : s.failure.transmit = s.transmit := transmit.trans (s.transmit_count _)
  have state : (s.count .sendFailures).link.state = s.link.state := congrArg Link.state link
  have passive : (s.count .sendFailures).flag .linkPassive = s.flag .linkPassive :=
    count_notes (.flag .linkPassive) (by decide)
  refine ⟨⟨score, ?_, fun b => ?_, fun active enough => ?_, fun few => ?_, ?_⟩, transmit, ?_⟩
  · exact (notes (.counter .sendFailures) (by decide)).trans ((s.cell_count _ _).trans (if_pos rfl))
  · rw [frames, transmit]
    rfl
  · have passes := scoreFailed_passes (s := s.count .sendFailures) (state.trans active) (by rw [link]; exact enough)
      (by rw [link]; exact low.resolve_left (by rw [active]; decide))
    rw [failure, passes]
    exact ⟨rfl, flag_writeFlag_same _ _ _⟩
  · have stays := scoreFailed_stays (s := s.count .sendFailures) (by rw [link]; exact few) (by rw [link]; exact low)
    rw [failure, stays]
    exact ⟨state, passive⟩
  · exact count_notes.seq notes (by simp) (by simp)
  · exact (s.count_only .sendFailures).seq only (by decide) (by decide)

theorem failure_withdraws (state : s.link.state ≠ .withdrawn) (high : 192 ≤ min 255 (s.link.score + 8)) :
    FailureWithdraws s s.failure ∧
      s.failure.transmit = { boxes := emptyBoxes, offer := none, abandoned := s.transmit.abandon } := by
  have link := s.link_count .sendFailures
  have withdraws : s.failure = (s.count .sendFailures).withdraw (min 255 (s.link.score + 8)) := by
    rw [failure, scoreFailed_withdraws (by rw [link]; exact state) (by rw [link]; exact high), link]
  have transmit : s.failure.transmit = { boxes := emptyBoxes, offer := none, abandoned := s.transmit.abandon } := by
    rw [withdraws, withdraw_transmit, transmit_count]
  have after : s.failure.link = { s.link with
      score := min 255 (s.link.score + 8), state := .withdrawn, withdrawal := some 2000 } := by
    rw [withdraws, withdraw_link_eq, link]
  obtain ⟨-, passive, withdrawn⟩ := (s.count .sendFailures).withdraw_link (min 255 (s.link.score + 8))
  rw [← withdraws] at passive withdrawn
  refine ⟨⟨by rw [after], by rw [after], by rw [after], ?_, ?_, withdrawn, passive, fun b => ?_, by rw [transmit]⟩,
    transmit⟩
  · rw [withdraws, cell_withdraw, if_neg (by decide), cell_count, if_pos rfl]
  · rw [withdraws, cell_withdraw, if_pos rfl, cell_count, if_neg (by decide)]
  · rw [frames, transmit, Boxes.held_emptyBoxes]
    rfl

theorem failure_only (s : State) : Only (.boxes :: .offer :: .abandoned :: scoreParts) s s.failure :=
  ((s.count_only .sendFailures).mono (by decide)).trans (scoreFailed_only _)

theorem FailureScored.chooseOffer (h : FailureScored s t) : FailureScored s t.chooseOffer := by
  obtain ⟨score, failed, frames, passes, stays, notes⟩ := h
  refine ⟨?_, ?_, ?_, ?_, ?_, notes.trans ((State.chooseOffer_notes _).mono (by simp))⟩ <;>
    simp only [cell_chooseOffer, link_chooseOffer, flag_chooseOffer, frames_chooseOffer] <;> assumption

/-- Every frame whose outcome is to come is still among them after a FAILED (log 14). -/
theorem failure_abandon (s : State) : s.failure.transmit.abandon = s.transmit.abandon := by
  by_cases low : s.link.state = .withdrawn ∨ min 255 (s.link.score + 8) < 192
  · obtain ⟨-, transmit, -⟩ := failure_scored low
    rw [transmit]
  · obtain ⟨state, high⟩ := not_or.mp low
    obtain ⟨-, transmit⟩ := failure_withdraws state (Nat.not_lt.mp high)
    rw [transmit]
    exact List.append_nil _

/-- An ACCEPTED that is still held has not been removed. -/
theorem acceptRemoved_of_held {b : Boxes} (same : t.transmit.boxes.holdsAccept = b.holdsAccept) :
    t.acceptRemoved b = false := by
  unfold acceptRemoved
  rw [same, Bool.and_not_self]

theorem acceptRemoved_of_empty {b : Boxes} (empty : t.transmit.boxes = emptyBoxes) :
    t.acceptRemoved b = b.holdsAccept := by
  unfold acceptRemoved
  rw [empty]
  exact Bool.and_true _

/-! ## The outcomes by what is outstanding (R165, log 14) -/

/-- The failure of the frame on offer, which stays in its mailbox. -/
def failedOffered (s : State) : State := (s.settleOffer s.transmit.boxes.keepOffered).failure

/-- The failure of an abandoned frame, outside LOADING. -/
def failedAbandoned (s : State) (rest : List Frame) : State := (s.setAbandoned rest).failure

theorem exec_lost_offered {f : Frame} (abandoned : s.transmit.abandoned = []) (offer : s.transmit.offer = some f) :
    exec .arbitrationLost s =
      finish ((s.settleOffer s.transmit.boxes.keepOffered).resetIf s.transmit.boxes.acceptOffered) := by
  show execArbitrationLost s = _
  unfold execArbitrationLost
  rw [abandoned, offer]

theorem exec_lost_abandoned {f : Frame} {rest : List Frame} (abandoned : s.transmit.abandoned = f :: rest) :
    exec .arbitrationLost s = finish (s.setAbandoned rest) := by
  show execArbitrationLost s = _
  unfold execArbitrationLost
  rw [abandoned]

theorem exec_lost_idle (abandoned : s.transmit.abandoned = []) (offer : s.transmit.offer = none) :
    exec .arbitrationLost s = finish s := by
  show execArbitrationLost s = _
  unfold execArbitrationLost
  rw [abandoned, offer]

theorem exec_failed_offered {f : Frame} (abandoned : s.transmit.abandoned = []) (offer : s.transmit.offer = some f) :
    exec .failed s = finish (s.failedOffered.resetIf
      (s.transmit.boxes.acceptOffered || s.failedOffered.acceptRemoved s.transmit.boxes)) := by
  show execFailed s = _
  unfold execFailed
  rw [abandoned, offer]
  rfl

theorem exec_failed_abandoned {f : Frame} {rest : List Frame} (abandoned : s.transmit.abandoned = f :: rest)
    (station : s.startup.station ≠ .loading) : exec .failed s =
      finish ((s.failedAbandoned rest).resetIf ((s.failedAbandoned rest).acceptRemoved s.transmit.boxes)) := by
  show execFailed s = _
  unfold execFailed
  rw [abandoned]
  exact if_neg station

theorem exec_failed_loading {f : Frame} {rest : List Frame} (abandoned : s.transmit.abandoned = f :: rest)
    (station : s.startup.station = .loading) : exec .failed s =
      finish (s.scoreInLoading ((s.setAbandoned rest).count .sendFailures) (min 255 (s.link.score + 8))) := by
  show execFailed s = _
  unfold execFailed
  rw [abandoned]
  exact if_pos station

theorem exec_failed_idle (abandoned : s.transmit.abandoned = []) (offer : s.transmit.offer = none) :
    exec .failed s = finish s := by
  show execFailed s = _
  unfold execFailed
  rw [abandoned, offer]

end State

/-! ## The frame on offer -/

section Offered

variable {s : State} {f : Frame} (abandoned : s.transmit.abandoned = []) (offer : s.transmit.offer = some f)
include abandoned offer

theorem arbitrationLost_keeps (accept : s.transmit.boxes.acceptOffered = false) :
    ∃ t, exec .arbitrationLost s = .next t ∧ (∀ b, t.frames b = s.frames b) ∧ Only [.offer] s t ∧ Notes [] s t := by
  refine ⟨_, (State.exec_lost_offered abandoned offer).trans (by rw [accept]; rfl), fun b => ?_, ?_, ?_⟩
  · rw [State.frames_chooseOffer]
    exact State.frames_same (s.keepOffered_notes (.box b) (by simp))
  · exact s.keepOffered_only.trans (State.chooseOffer_only _)
  · exact s.keepOffered_notes.trans (State.chooseOffer_notes _)

theorem failed_scores (accept : s.transmit.boxes.acceptOffered = false)
    (low : s.link.state = .withdrawn ∨ min 255 (s.link.score + 8) < 192) :
    ∃ t, exec .failed s = .next t ∧ State.FailureScored s t ∧
      Only [.offer, .counters, .flagBits, .alert, .score, .linkState] s t := by
  have kept := s.keepOffered_only
  obtain ⟨scored, transmit, only⟩ := State.failure_scored (s := s.settleOffer s.transmit.boxes.keepOffered) low
  have removed : s.failedOffered.acceptRemoved s.transmit.boxes = false := State.acceptRemoved_of_held (by
    rw [State.failedOffered, transmit]
    exact s.transmit.boxes.holdsAccept_keepOffered)
  obtain ⟨score, failed, frames, passes, stays, notes⟩ := scored
  have scored : State.FailureScored s s.failedOffered :=
    ⟨score, failed, fun b => (frames b).trans (State.frames_same (s.keepOffered_notes (.box b) (by simp))), passes, stays,
      (s.keepOffered_notes.mono (by simp)).trans notes⟩
  refine ⟨_, (State.exec_failed_offered abandoned offer).trans (by rw [accept, removed]; rfl), scored.chooseOffer, ?_⟩
  exact (kept.seq only (by decide) (by decide)).trans ((State.chooseOffer_only _).mono (by decide))

theorem failed_withdraws (holds : s.transmit.boxes.holdsAccept = false) (state : s.link.state ≠ .withdrawn)
    (high : 192 ≤ min 255 (s.link.score + 8)) :
    ∃ t, exec .failed s = .next t ∧ State.FailureWithdraws s t ∧
      Only [.boxes, .offer, .counters, .flagBits, .alert, .score, .linkState, .withdrawal] s t := by
  obtain ⟨withdrawn, transmit⟩ :=
    State.failure_withdraws (s := s.settleOffer s.transmit.boxes.keepOffered) state high
  have accept : s.transmit.boxes.acceptOffered = false :=
    Bool.eq_false_iff.mpr fun offered => by cases holds.symm.trans (Boxes.holdsAccept_of_acceptOffered offered)
  have removed : s.failedOffered.acceptRemoved s.transmit.boxes = false :=
    (State.acceptRemoved_of_empty (congrArg Transmit.boxes transmit)).trans holds
  have run : exec .failed s = .next s.failedOffered := by
    rw [State.exec_failed_offered abandoned offer, accept, removed]
    exact congrArg Host.Outcome.next (State.chooseOffer_of_silenced (.inl withdrawn.state))
  obtain ⟨score, state, timer, failed, counted, withdrawn, passive, frames, unoffered⟩ := withdrawn
  refine ⟨_, run, ⟨score, state, timer, failed, counted, withdrawn, passive, frames, unoffered⟩, ?_⟩
  have kept : Part.abandoned.same s s.failedOffered := by
    show s.failedOffered.transmit.abandoned = s.transmit.abandoned
    exact (congrArg Transmit.abandoned transmit).trans (List.append_nil _)
  exact (Only.strike (s.keepOffered_only.append (State.failure_only _)) kept).mono (by decide)

/-- The reset state that an accepted RESET ALL brings within the event (log 19). -/
theorem failed_resets (due : (s.transmit.boxes.acceptOffered || s.failedOffered.acceptRemoved s.transmit.boxes) = true) :
    exec .failed s = .next (State.afterReset s.pins s.pending) := by
  rw [State.exec_failed_offered abandoned offer, due, State.finish_resetIf_true,
    State.coldReset_of_only (u := s.failedOffered) (s.keepOffered_only.append (State.failure_only _)) ?_]
  exact (State.failure_abandon _).trans ((List.append_nil _).trans abandoned)

theorem arbitrationLost_resets (accept : s.transmit.boxes.acceptOffered = true) :
    exec .arbitrationLost s = .next (State.afterReset s.pins s.pending) := by
  rw [State.exec_lost_offered abandoned offer, accept, State.finish_resetIf_true,
    State.coldReset_of_only s.keepOffered_only ?_]
  exact (List.append_nil _).trans abandoned

end Offered

/-! ## An abandoned frame -/

section Abandoned

variable {s : State} {f : Frame} {rest : List Frame} (abandoned : s.transmit.abandoned = f :: rest)
include abandoned

theorem arbitrationLost_abandoned :
    ∃ t, exec .arbitrationLost s = .next t ∧ t.transmit.abandoned = rest ∧ Changes [.abandoned] [] s t :=
  ⟨_, State.exec_lost_abandoned abandoned, State.abandoned_chooseOffer _,
    Changes.ends (s.setAbandoned_only rest) (Notes.plain rfl rfl rfl)⟩

theorem failed_in_loading (station : s.startup.station = .loading) :
    ∃ t, exec .failed s = .next t ∧ t.link.score = min 255 (s.link.score + 8) ∧ t.transmit.abandoned = rest ∧
      t.cell .sendFailures = (s.cell .sendFailures).add 1 ∧
      Changes [.abandoned, .score] [.counter .sendFailures] s t := by
  have counts := (s.setAbandoned rest).count_only .sendFailures
  have notes := (s.setAbandoned rest).count_notes .sendFailures
  refine ⟨_, State.exec_failed_loading abandoned station, ?_, ?_, ?_, ?_⟩
  · rw [State.link_chooseOffer]
    rfl
  · rw [State.abandoned_chooseOffer]
    exact congrArg Transmit.abandoned ((s.setAbandoned rest).transmit_count .sendFailures)
  · rw [State.cell_chooseOffer]
    exact ((s.setAbandoned rest).cell_count _ _).trans (if_pos rfl)
  · exact Changes.ends (State.scoreInLoading_keeps (ps := [.abandoned, .counters]) _
      ((s.setAbandoned_only rest).seq counts (by decide) (by decide)))
      (State.scoreInLoading_notes _ ((Notes.plain rfl rfl rfl).trans notes) (by simp))

variable (station : s.startup.station ≠ .loading)
include station

theorem failed_scores_abandoned (low : s.link.state = .withdrawn ∨ min 255 (s.link.score + 8) < 192) :
    ∃ t, exec .failed s = .next t ∧ State.FailureScored s t ∧ t.transmit.abandoned = rest ∧
      Only [.offer, .abandoned, .counters, .flagBits, .alert, .score, .linkState] s t ∧
      ∀ g, s.transmit.offer = some g → t.transmit.offer = some g := by
  obtain ⟨scored, transmit, only⟩ := State.failure_scored (s := s.setAbandoned rest) low
  have transmit : (s.failedAbandoned rest).transmit = { s.transmit with abandoned := rest } := transmit
  have removed : (s.failedAbandoned rest).acceptRemoved s.transmit.boxes = false :=
    State.acceptRemoved_of_held (by rw [transmit])
  have plain : Notes [] s (s.setAbandoned rest) := Notes.plain rfl rfl rfl
  obtain ⟨score, failed, frames, passes, stays, notes⟩ := scored
  have scored : State.FailureScored s (s.failedAbandoned rest) :=
    ⟨score, failed, frames, passes, stays, (plain.mono (by simp)).trans notes⟩
  refine ⟨_, (State.exec_failed_abandoned abandoned station).trans (by rw [removed]; rfl), scored.chooseOffer, ?_, ?_,
    fun g offer => ?_⟩
  · rw [State.abandoned_chooseOffer, transmit]
  · exact ((s.setAbandoned_only rest).seq only (by decide) (by decide)).trans
      ((State.chooseOffer_only _).mono (by decide))
  · have offer : (s.failedAbandoned rest).transmit.offer = some g := (congrArg Transmit.offer transmit).trans offer
    rw [State.chooseOffer_offer _ g offer]
    exact offer

theorem failed_withdraws_abandoned (state : s.link.state ≠ .withdrawn) (high : 192 ≤ min 255 (s.link.score + 8)) :
    (s.transmit.boxes.holdsAccept = true → ∃ t, exec .failed s = .next t ∧ ResetState s t) ∧
      (s.transmit.boxes.holdsAccept = false → ∃ t, exec .failed s = .next t ∧ State.FailureWithdraws s t ∧
        t.transmit.abandoned = rest ++ s.transmit.offer.toList ∧
        Only [.boxes, .offer, .abandoned, .counters, .flagBits, .alert, .score, .linkState, .withdrawal] s t) := by
  obtain ⟨withdrawn, transmit⟩ := State.failure_withdraws (s := s.setAbandoned rest) state high
  have transmit : (s.failedAbandoned rest).transmit =
      { boxes := emptyBoxes, offer := none, abandoned := rest ++ s.transmit.offer.toList } := transmit
  have removed := State.acceptRemoved_of_empty (b := s.transmit.boxes) (congrArg Transmit.boxes transmit)
  have only : Only (.boxes :: .offer :: .abandoned :: scoreParts) s (s.failedAbandoned rest) :=
    ((s.setAbandoned_only rest).mono (by decide)).trans (State.failure_only _)
  refine ⟨fun holds => ⟨_, ?_, State.resetState_of_only only⟩, fun holds => ?_⟩
  · rw [State.exec_failed_abandoned abandoned station, removed, holds]
    exact State.finish_resetIf_true _
  · have run : exec .failed s = .next (s.failedAbandoned rest) := by
      rw [State.exec_failed_abandoned abandoned station, removed, holds]
      exact congrArg Host.Outcome.next (State.chooseOffer_of_silenced (.inl withdrawn.state))
    obtain ⟨score, state, timer, failed, counted, withdrawn, passive, frames, unoffered⟩ := withdrawn
    exact ⟨_, run, ⟨score, state, timer, failed, counted, withdrawn, passive, frames, unoffered⟩,
      by rw [transmit], only.mono (by decide)⟩

end Abandoned

/-! ## The withdrawal's end (R166) -/

/-- The score is 0 and the link ACTIVE again. -/
def State.withdrawalEnds (s : State) : State :=
  ({ s with link := { s.link with score := 0, state := .active, withdrawal := none } } : State).clearFlag .linkWithdrawn

theorem State.withdrawalEnds_only (s : State) :
    Only [.score, .linkState, .withdrawal, .flagBits, .alert] s s.withdrawalEnds := by
  have link : Only [.score, .linkState, .withdrawal] s
      { s with link := { s.link with score := 0, state := .active, withdrawal := none } } := by
    intro p hp
    cases p <;> first | rfl | exact ⟨rfl, rfl⟩ | exact ⟨rfl, rfl, rfl⟩ | contradiction
  exact link.seq (writeFlag_only _ _ _) (by decide) (by decide)

theorem State.withdrawalEnds_notes (s : State) : Notes [.flag .linkWithdrawn] s s.withdrawalEnds :=
  (Notes.plain rfl rfl rfl).trans (writeFlag_notes _ _ _)

/-- Settles O45: each outcome by what is outstanding, its score by `State.FailureScored` below 192 and by
`State.FailureWithdraws` from 192. -/
theorem lostAndFailedFramesStayUntilAWithdrawal : Obligations.LostAndFailedFramesStayUntilAWithdrawal := by
  refine ⟨?_, fun s state timer => ?_⟩
  · intro s score scored withdrawn
    have scores {t : State} (h : State.FailureScored s t) : scored t :=
      ⟨h.score, h.failed, h.frames, h.passes, h.stays, h.notes⟩
    have withdraws {t : State} (h : State.FailureWithdraws s t) : withdrawn t :=
      ⟨h.score, h.state, h.timer, h.failed, h.counted, h.withdrawn, h.passive, h.frames, h.offer⟩
    refine ⟨fun f abandoned offer => ⟨arbitrationLost_keeps abandoned offer, fun accept low => ?_,
      fun holds state high => ?_, fun accept => ⟨arbitrationLost_resets abandoned offer accept, ?_⟩,
      fun holds state high => ?_⟩, fun f rest abandoned => ⟨arbitrationLost_abandoned abandoned,
      failed_in_loading abandoned, fun station low => ?_, fun station state high => ?_⟩, fun abandoned offer => ?_⟩
    · obtain ⟨t, run, scored, only⟩ := failed_scores abandoned offer accept low
      exact ⟨t, run, scores scored, only⟩
    · obtain ⟨t, run, withdrawn, only⟩ := failed_withdraws abandoned offer holds state high
      exact ⟨t, run, withdraws withdrawn, only⟩
    · exact failed_resets abandoned offer (by rw [accept, Bool.true_or])
    · obtain ⟨-, transmit⟩ :=
        State.failure_withdraws (s := s.settleOffer s.transmit.boxes.keepOffered) state high
      have removed : s.failedOffered.acceptRemoved s.transmit.boxes = true :=
        (State.acceptRemoved_of_empty (congrArg Transmit.boxes transmit)).trans holds
      exact failed_resets abandoned offer (by rw [removed, Bool.or_true])
    · obtain ⟨t, run, scored, rest⟩ := failed_scores_abandoned abandoned station low
      exact ⟨t, run, scores scored, rest⟩
    · obtain ⟨resets, emptied⟩ := failed_withdraws_abandoned abandoned station state high
      refine ⟨resets, fun holds => ?_⟩
      obtain ⟨t, run, withdrawn, rest⟩ := emptied holds
      exact ⟨t, run, withdraws withdrawn, rest⟩
    · exact ⟨⟨_, State.exec_lost_idle abandoned offer, Changes.choice s⟩,
        ⟨_, State.exec_failed_idle abandoned offer, Changes.choice s⟩⟩
  · have run : exec .withdrawalTimerExpiry s = .next s.withdrawalEnds.chooseOffer := if_pos ⟨state, timer⟩
    refine ⟨_, run, ?_, ?_, ?_, ?_, State.offerable_of_unoffered,
      Changes.ends s.withdrawalEnds_only s.withdrawalEnds_notes⟩
    · rw [State.link_chooseOffer]
      rfl
    · rw [State.link_chooseOffer]
      rfl
    · rw [State.link_chooseOffer]
      rfl
    · rw [State.flag_chooseOffer]
      exact State.flag_writeFlag_same _ _ _

end Sys2Proof.Machine
end

section
/-! PROOFS. The routine timers (O46): STATUS content and the READINGs of the published slots. -/

namespace Sys2Proof.Machine

open Sys2Proof

/-! ## STATUS and READING content (R15, R174) -/

/-- A number from `n` pin levels has `n` bits. -/
theorem bitsValue_lt (l : List Bool) : bitsValue l < 2 ^ l.length := by
  induction l with
  | nil => exact Nat.one_pos
  | cons b bs ih =>
    rw [bitsValue, List.length_cons, Nat.pow_succ]
    split <;> omega

/-- The summary is one byte: seven groups and the ALERT pin (R160). -/
theorem State.summary_lt (s : State) : s.summary < 256 := by
  have bits := bitsValue_lt (summaryGroups.map s.groupIndication ++ [s.flags.alert])
  have length : (summaryGroups.map s.groupIndication ++ [s.flags.alert]).length = 8 := rfl
  rwa [length] at bits

/-- A one-byte field holds what is below 256. -/
theorem byte1_value_of_lt {n : Nat} (h : n < 256) : (BitVec.ofNat 8 n).toNat = n :=
  (byte1_value n).trans (Nat.mod_eq_of_lt h)

/-- A burden field shows a known burden, and 65535 for none (R174). -/
theorem burdenField {f : Frame} {i : Nat} {o : Option Nat}
    (h : f.word i = (BitVec.ofNat 8 (burdenCode o / 256)).toNat * 256 + (BitVec.ofNat 8 (burdenCode o)).toNat) :
    (o = none → f.word i = 65535) ∧ ∀ b, o = some b → b < 65536 → f.word i = b := by
  rw [h]
  refine ⟨?_, ?_⟩
  · rintro rfl
    rfl
  · rintro b rfl low
    exact byte2_value low

theorem statusHead_lt (r : Role) (st : Station) : roleCode r + 16 * stationCode st < 256 := by
  cases r <;> cases st <;> decide

theorem readingHead_lt (k : Kind) (l : Location) (q : Quality) :
    kindCode k + 8 * locationCode l + 32 * qualityCode q < 256 := by
  have kind : kindCode k ≤ 6 := by cases k <;> decide
  have location : locationCode l ≤ 2 := by cases l <;> decide
  have quality : qualityCode q ≤ 4 := by cases q <;> decide
  omega

theorem statusFrame_fields (s : State) : (statusFrame s).kind = 6 ∧ (statusFrame s).index = 0 ∧
    (statusFrame s).station = s.startup.own ∧ (statusFrame s).data.length = 8 ∧
    (statusFrame s).byte 0 = roleCode s.startup.role + 16 * stationCode s.startup.station ∧
    (statusFrame s).byte 1 = (regimeCode s.activeRegime).val ∧
    (s.ramps.damper.output < 65536 → (statusFrame s).word 2 = s.ramps.damper.output) ∧
    (s.combinedBurden = none → (statusFrame s).word 4 = 65535) ∧
    (∀ b, s.combinedBurden = some b → b < 65536 → (statusFrame s).word 4 = b) ∧
    (statusFrame s).byte 6 = s.summary ∧
    (statusFrame s).byte 7 = if s.startup.station = .conflict then 50
      else min 255 (s.cfg.statusInterval * s.stretch.interval.factor) := by
  obtain ⟨kind, index, station⟩ := State.ownFrame_head s 6 0 (statusFrame s).data (by decide) (by decide)
  obtain ⟨unknown, known⟩ := burdenField (f := statusFrame s) (i := 4) (o := s.combinedBurden) rfl
  have interval : s.effectiveInterval < 256 := by
    unfold State.effectiveInterval
    split <;> omega
  exact ⟨kind, Fin.ext index, station, rfl, byte1_value_of_lt (statusHead_lt _ _),
    byte1_value_of_lt ((regimeCode s.activeRegime).isLt.trans (by decide)), byte2_value, unknown, known,
    byte1_value_of_lt s.summary_lt, byte1_value_of_lt interval⟩

theorem readingFrame_fields (s : State) (i : Fin 16) : (readingFrame s i).kind = 7 ∧ (readingFrame s i).index = i ∧
    (readingFrame s i).station = s.startup.own ∧ (readingFrame s i).data.length = 5 ∧
    (readingFrame s i).byte 0 = kindCode s.cfg.slots[i].kind + 8 * locationCode s.cfg.slots[i].location +
      32 * qualityCode s.sequencer.records[i].quality ∧
    (s.sequencer.records[i].value < 65536 → (readingFrame s i).word 1 = s.sequencer.records[i].value) ∧
    (s.slotBurden i = none → (readingFrame s i).word 3 = 65535) ∧
    ∀ b, s.slotBurden i = some b → b < 65536 → (readingFrame s i).word 3 = b := by
  obtain ⟨kind, index, station⟩ := State.ownFrame_head s 7 i.val (readingFrame s i).data (by decide) i.isLt
  obtain ⟨unknown, known⟩ := burdenField (f := readingFrame s i) (i := 3) (o := s.slotBurden i) rfl
  exact ⟨kind, Fin.ext index, station, rfl, byte1_value_of_lt (readingHead_lt _ _ _), byte2_value, unknown, known⟩

namespace State

variable {s t : State} {i j : Fin 16}

/-! ## STATUS_TIMER_EXPIRY (R167) -/

/-- STATUS is kept in every station state (R164). -/
theorem frames_post_status (s : State) (f : Frame) : (s.post .status f).frames .status = [f] := by
  rw [post_held (.inr rfl), frames_hold, Boxes.held_put_single (box := .status) nofun nofun]
  rfl

/-- The status timer restarted, and STATUS queued as it stands. -/
def queueStatus (s : State) : State :=
  ({ s with link := { s.link with status := some s.statusPeriod } } : State).post .status (statusFrame s)

theorem queueStatus_only (s : State) : Only (.statusTimer :: postParts) s s.queueStatus := by
  have restarted : Only [.statusTimer] s { s with link := { s.link with status := some s.statusPeriod } } := by
    intro p hp
    cases p <;> first | rfl | exact ⟨rfl, rfl⟩ | exact ⟨rfl, rfl, rfl⟩ | contradiction
  exact restarted.append (post_only _ _ _)

theorem queueStatus_notes (s : State) : Notes (postNotes .status) s s.queueStatus :=
  (Notes.plain rfl rfl rfl).trans (post_notes _ _ _)

theorem link_hold (s : State) (b : Box) (x : Held) : (s.hold b x).link = s.link := by
  unfold hold
  dsimp only
  split
  · exact link_count _ _
  · rfl

theorem link_post (s : State) (b : Box) (f : Frame) : (s.post b f).link = s.link := by
  unfold post
  split
  · rfl
  · exact s.link_hold b _

/-! ## READING_TIMER_EXPIRY (R167) -/

/-- A READING shows its slot, which queuing leaves as it was. -/
theorem readingFrame_congr {ps : List Part} (h : Only ps s t) (i : Fin 16) (straps : Part.straps ∉ ps := by decide)
    (cfg : Part.cfg ∉ ps := by decide) (records : Part.records ∉ ps := by decide) :
    readingFrame t i = readingFrame s i := by
  have straps : t.startup.own = s.startup.own := (h .straps straps).1
  have cfg : t.cfg = s.cfg := h .cfg cfg
  have records : t.sequencer.records = s.sequencer.records := h .records records
  unfold readingFrame ownFrame slotBurden
  rw [straps, cfg, records]

theorem published_congr {ps : List Part} (h : Only ps s t) (i : Fin 16) (cfg : Part.cfg ∉ ps := by decide) :
    t.published i = s.published i := by
  have cfg : t.cfg = s.cfg := h .cfg cfg
  unfold published
  rw [cfg]

/-- The slot's READING is kept when it falls due: the slot is published, and the station is not in CONFLICT (R164). -/
def sendsReading (s : State) (i : Fin 16) : Prop := s.published i = true ∧ s.startup.station ≠ .conflict

theorem sendsReading_congr {ps : List Part} (h : Only ps s t) (i : Fin 16) (cfg : Part.cfg ∉ ps := by decide)
    (station : Part.station ∉ ps := by decide) : t.sendsReading i ↔ s.sendsReading i := by
  have station : t.startup.station = s.startup.station := h .station station
  unfold sendsReading
  rw [published_congr h i cfg, station]

theorem frames_postReading_same (h : s.sendsReading i) : (s.postReading i).frames (.reading i) = [readingFrame s i] := by
  unfold postReading
  rw [if_pos h.1]
  exact frames_post _ _ _ h.2 nofun nofun

theorem frames_postReading_other (h : ¬ (i = j ∧ s.sendsReading i)) :
    (s.postReading i).frames (.reading j) = s.frames (.reading j) := by
  unfold postReading
  split
  · next published =>
    by_cases same : i = j
    · have conflict : s.startup.station = .conflict := not_not.mp fun station => h ⟨same, published, station⟩
      rw [post_discarded (b := .reading i) conflict nofun]
    · exact frames_same (s.post_notes (.reading i) _ (.box (.reading j)) (by simp [Ne.symm same]))
  · rfl

/-- Of the slots of a list, those published leave their READINGs in their mailboxes. -/
theorem frames_postReadings (l : List (Fin 16)) (s : State) (i : Fin 16) :
    (i ∈ l → s.sendsReading i → (l.foldl postReading s).frames (.reading i) = [readingFrame s i]) ∧
      (¬ (i ∈ l ∧ s.sendsReading i) → (l.foldl postReading s).frames (.reading i) = s.frames (.reading i)) := by
  induction l generalizing s with
  | nil => exact ⟨nofun, fun _ => rfl⟩
  | cons j js ih =>
    have only := s.postReading_only j
    obtain ⟨posted, left⟩ := ih (s.postReading j)
    rw [sendsReading_congr only, readingFrame_congr only] at posted
    rw [sendsReading_congr only] at left
    refine ⟨fun member sends => ?_, fun quiet => ?_⟩
    · by_cases later : i ∈ js
      · exact posted later sends
      · obtain rfl : i = j := (List.mem_cons.mp member).resolve_right later
        exact (left fun again => later again.1).trans (frames_postReading_same sends)
    · refine (left fun later => quiet ⟨List.mem_cons_of_mem j later.1, later.2⟩).trans (frames_postReading_other ?_)
      rintro ⟨rfl, sends⟩
      exact quiet ⟨List.mem_cons_self, sends⟩

/-- The reading timer restarted. -/
def restartReading (s : State) : State :=
  { s with link := { s.link with reading := some (routinePeriod s.cfg.readingInterval s.stretch.interval.factor) } }

theorem restartReading_only (s : State) : Only [.readingTimer] s s.restartReading := by
  intro p hp
  cases p <;> first | rfl | exact ⟨rfl, rfl⟩ | exact ⟨rfl, rfl, rfl⟩ | contradiction

/-- The reading timer restarted, and a READING queued for each published slot. -/
def queueReadings (s : State) : State := (List.finRange 16).foldl postReading s.restartReading

/-- What the READINGs of all slots touch. -/
abbrev readingNotes : List Note :=
  ((List.finRange 16).map fun i => Note.box (.reading i)) ++ [.counter .superseded, .flag .counterRollover]

theorem queueReadings_only (s : State) : Only (.readingTimer :: postParts) s s.queueReadings :=
  s.restartReading_only.append (Only.foldl postReading_only _ _)

theorem queueReadings_notes (s : State) : Notes readingNotes s s.queueReadings := by
  have restarted : Notes readingNotes s s.restartReading := Notes.plain rfl rfl rfl
  exact restarted.trans (Notes.foldl (fun t i => (t.postReading_notes i).mono (by simp)) _ _)

theorem link_foldl_postReading (l : List (Fin 16)) (s : State) : (l.foldl postReading s).link = s.link := by
  induction l generalizing s with
  | nil => rfl
  | cons j js ih =>
    refine (ih (s.postReading j)).trans ?_
    unfold postReading
    split
    · exact s.link_post _ _
    · rfl

end State

/-- Settles O46: STATUS by `statusFrame_fields`, the READINGs by `State.frames_postReadings` and `readingFrame_fields`. -/
theorem routineTimersQueueStatusAndReadings : Obligations.RoutineTimersQueueStatusAndReadings := by
  refine fun s => ⟨fun running => ?_, fun running => ?_⟩
  · have run : exec .statusTimerExpiry s = .next s.queueStatus.chooseOffer := if_pos running
    refine ⟨_, run, ?_, ⟨statusFrame s, ?_, statusFrame_fields s⟩, Changes.ends s.queueStatus_only s.queueStatus_notes⟩
    · rw [State.link_chooseOffer, State.queueStatus, State.link_post]
      rfl
    · rw [State.frames_chooseOffer]
      exact State.frames_post_status _ _
  · have run : exec .readingTimerExpiry s = .next s.queueReadings.chooseOffer := if_pos running
    have queued (i : Fin 16) := State.frames_postReadings (List.finRange 16) s.restartReading i
    refine ⟨_, run, ?_, fun i station inRange publish => ⟨readingFrame s i, ?_, readingFrame_fields s i⟩,
      fun i quiet => ?_, Changes.ends s.queueReadings_only s.queueReadings_notes⟩
    · rw [State.link_chooseOffer, State.queueReadings, State.link_foldl_postReading]
      rfl
    · rw [State.frames_chooseOffer]
      exact (queued i).1 (List.mem_finRange i) ⟨Bool.and_eq_true_iff.mpr ⟨inRange, publish⟩, station⟩
    · rw [State.frames_chooseOffer]
      refine (queued i).2 ?_
      rintro ⟨-, published, station⟩
      obtain ⟨inRange, publish⟩ := Bool.and_eq_true_iff.mp published
      rcases quiet with conflict | outside | unpublished
      · exact station conflict
      · cases outside.symm.trans inRange
      · cases unpublished.symm.trans publish

end Sys2Proof.Machine
end

section
/-! PROOFS. Reception (O47): acceptance, the receive queue, and the HUSH that answers crowding. -/

namespace Sys2Proof.Machine

open Sys2Proof

/-! ## The acceptance table (R168) -/

theorem accepted_iff {c : Cfg} {id : BitVec 11} : accepted c id = true ↔
    ∃ i : Fin 16, c.accept[i].enabled = true ∧ id &&& c.accept[i].mask = c.accept[i].value &&& c.accept[i].mask := by
  have entry (e : AcceptEntry) : AcceptEntry.accepts e id = true ↔ e.enabled = true ∧ id &&& e.mask = e.value &&& e.mask := by
    rw [AcceptEntry.accepts, Bool.and_eq_true, decide_eq_true_iff]
  rw [accepted, List.any_eq_true]
  constructor
  · rintro ⟨e, member, accepts⟩
    obtain ⟨i, bound, rfl⟩ := Vector.mem_iff_getElem.mp (Vector.mem_toList_iff.mp member)
    exact ⟨⟨i, bound⟩, (entry _).mp accepts⟩
  · rintro ⟨i, accepts⟩
    exact ⟨c.accept[i], Vector.mem_toList_iff.mpr (Vector.getElem_mem i.isLt), (entry _).mpr accepts⟩

/-- An update of other parts leaves both parts of the stretch. -/
theorem State.stretch_of_only {ps : List Part} {s t : State} (h : Only ps s t) (peer : Part.stretch ∉ ps := by decide)
    (interval : Part.interval ∉ ps := by decide) : t.stretch = s.stretch := by
  have peer : t.stretch.peer = s.stretch.peer := h .stretch peer
  have interval : t.stretch.interval = s.stretch.interval := h .interval interval
  calc t.stretch = ⟨t.stretch.peer, t.stretch.interval⟩ := rfl
    _ = ⟨s.stretch.peer, s.stretch.interval⟩ := by rw [peer, interval]

namespace State

variable {s t : State} {f : Frame}

/-! ## The receive queue (R169) -/

/-- What an accepted frame does to the receive queue, before the crowding it may be. -/
def placeFrame (s : State) (f : Frame) : State :=
  if s.receive.queue.length < 16 then s.setQueue (s.receive.queue ++ [f])
  else if isSafeFrame f && s.receive.queue.any (fun g => !isSafeFrame g) then
    (s.setQueue (s.receive.queue.eraseP (fun g => !isSafeFrame g) ++ [f])).overflow
  else s.overflow

/-- From the twelfth frame on, and at each one on a full queue, a frame is crowding. -/
theorem enqueue_eq (s : State) (f : Frame) :
    s.enqueue f = if s.receive.queue.length + 1 < 12 then s.placeFrame f else (s.placeFrame f).crowding := by
  have limits : crowdingLength = 12 ∧ queueCapacity = 16 := ⟨rfl, rfl⟩
  unfold enqueue placeFrame
  dsimp only
  rw [limits.1, limits.2]
  by_cases room : s.receive.queue.length < 16
  · rw [if_pos room, if_pos room]
    by_cases calm : s.receive.queue.length + 1 < 12
    · rw [if_pos calm, if_neg (Nat.not_le.mpr calm)]
    · rw [if_neg calm, if_pos (Nat.not_lt.mp calm)]
  · have crowded : ¬ s.receive.queue.length + 1 < 12 := by omega
    rw [if_neg room, if_neg room, if_neg crowded]
    split <;> rfl

theorem isSafeFrame_iff {g : Frame} : isSafeFrame g = true ↔ g.kind = 1 := decide_eq_true_iff

theorem placeFrame_room (room : s.receive.queue.length < 16) : s.placeFrame f = s.setQueue (s.receive.queue ++ [f]) := if_pos room

/-- On a full queue of SAFEs, or for another frame, the frame received is discarded. -/
theorem placeFrame_discards (full : 16 ≤ s.receive.queue.length) (keeps : f.kind ≠ 1 ∨ ∀ g ∈ s.receive.queue, g.kind = 1) :
    s.placeFrame f = s.overflow := by
  refine (if_neg (Nat.not_lt.mpr full)).trans (if_neg fun gives => ?_)
  obtain ⟨safe, other⟩ := Bool.and_eq_true_iff.mp gives
  obtain ⟨g, member, plain⟩ := List.any_eq_true.mp other
  rw [Bool.not_eq_true', Bool.eq_false_iff] at plain
  exact keeps.elim (· (isSafeFrame_iff.mp safe)) fun all => plain (isSafeFrame_iff.mpr (all g member))

/-- On a full queue the oldest frame that is no SAFE gives way to a SAFE. -/
theorem placeFrame_gives_way {before after : List Frame} {g : Frame} (full : 16 ≤ s.receive.queue.length) (safe : f.kind = 1)
    (split : s.receive.queue = before ++ g :: after) (older : ∀ x ∈ before, x.kind = 1) (other : g.kind ≠ 1) :
    s.placeFrame f = (s.setQueue (before ++ after ++ [f])).overflow := by
  have plain : (!isSafeFrame g) = true := by
    rw [Bool.not_eq_true', Bool.eq_false_iff]
    exact fun safe => other (isSafeFrame_iff.mp safe)
  have kept (x : Frame) (member : x ∈ before) : ¬ (!isSafeFrame x) = true := by
    rw [isSafeFrame_iff.mpr (older x member)]
    decide
  have gives : (isSafeFrame f && s.receive.queue.any fun x => !isSafeFrame x) = true :=
    Bool.and_eq_true_iff.mpr ⟨isSafeFrame_iff.mpr safe, List.any_eq_true.mpr ⟨g, by simp [split], plain⟩⟩
  refine (if_neg (Nat.not_lt.mpr full)).trans ((if_pos gives).trans ?_)
  rw [split, List.eraseP_append_right _ kept, List.eraseP_cons_of_pos (p := fun x => !isSafeFrame x) plain]

theorem placeFrame_only (s : State) (f : Frame) : Only (.queue :: noteParts) s (s.placeFrame f) :=
  Only.ite ((s.setQueue_only _).mono (by decide)) (Only.ite ((s.setQueue_only _).append (overflow_only _))
    ((overflow_only s).mono (by decide)))

theorem placeFrame_notes (s : State) (f : Frame) :
    Notes [.counter .receiveOverflows, .flag .rxqOverflow, .flag .counterRollover] s (s.placeFrame f) :=
  Notes.ite ((s.setQueue_notes _).mono (by simp))
    (Notes.ite ((s.setQueue_notes _).seq (overflow_notes _) (by simp) (List.Subset.refl _)) (overflow_notes s))

theorem queue_overflow (s : State) : s.overflow.receive.queue = s.receive.queue := s.overflow_only .queue (by decide)

theorem overflow_counted (s : State) : s.overflow.cell .receiveOverflows = (s.cell .receiveOverflows).add 1 ∧
    s.overflow.flag .rxqOverflow = true :=
  ⟨(s.cell_count _ _).trans (if_pos rfl), flag_writeFlag_same _ _ _⟩

/-- Each frame lost at a full queue is counted, with its flag. -/
theorem placeFrame_overflowed (full : 16 ≤ s.receive.queue.length) :
    (s.placeFrame f).cell .receiveOverflows = (s.cell .receiveOverflows).add 1 ∧ (s.placeFrame f).flag .rxqOverflow = true := by
  unfold placeFrame
  rw [if_neg (Nat.not_lt.mpr full)]
  split
  · exact overflow_counted _
  · exact overflow_counted s

/-- The queue is full once the frame is in, or was full when it came. -/
theorem placeFrame_full_iff (s : State) (f : Frame) :
    16 ≤ (s.placeFrame f).receive.queue.length ↔ 16 ≤ s.receive.queue.length + 1 := by
  by_cases room : s.receive.queue.length < 16
  · rw [placeFrame_room room]
    show 16 ≤ (s.receive.queue ++ [f]).length ↔ _
    rw [List.length_append, List.length_singleton]
  · refine iff_of_true ?_ (by omega)
    unfold placeFrame
    rw [if_neg room]
    split
    · next gives =>
      have length := Does.eraseP_length (Bool.and_eq_true_iff.mp gives).2
      rw [queue_overflow]
      show 16 ≤ (s.receive.queue.eraseP (fun g => !isSafeFrame g) ++ [f]).length
      rw [List.length_append, List.length_singleton]
      omega
    · rw [queue_overflow]
      omega

/-! ## Crowding (R170) -/

theorem crowding_unanswered (h : s.startup.station = .conflict ∨
    ∃ g, s.receive.guard = some g ∧ (g.four = true ∨ ¬ 16 ≤ s.receive.queue.length)) : s.crowding = s := by
  unfold crowding
  dsimp only
  split
  · rfl
  · next station =>
    obtain ⟨g, guard, paced⟩ := h.resolve_left station
    rw [guard]
    refine if_neg fun answers => ?_
    obtain ⟨full, two⟩ := Bool.and_eq_true_iff.mp answers
    rcases paced with four | room
    · rw [four] at two
      cases two
    · exact room (of_decide_eq_true full)

theorem crowding_answered (station : s.startup.station ≠ .conflict)
    (h : s.receive.guard = none ∨ ∃ g, s.receive.guard = some g ∧ g.four = false ∧ 16 ≤ s.receive.queue.length) :
    s.crowding = s.sendHush (decide (16 ≤ s.receive.queue.length)) := by
  unfold crowding
  dsimp only
  rw [if_neg station]
  rcases h with guard | ⟨g, guard, two, full⟩
  · rw [guard]
    rfl
  · have four : decide (queueCapacity ≤ s.receive.queue.length) = true := decide_eq_true full
    rw [guard, decide_eq_true full]
    exact if_pos (by rw [four, two]; rfl)

/-- The factor a HUSH asks for. -/
def hushOf (four : Bool) : Nat := if four then 4 else 2

theorem hushFrame_fields (s : State) (four : Bool) :
    (hushFrame s (hushOf four) 20).kind = 2 ∧ (hushFrame s (hushOf four) 20).station = s.startup.own ∧
      (hushFrame s (hushOf four) 20).data.length = 2 ∧ (hushFrame s (hushOf four) 20).byte 0 = hushOf four ∧
      (hushFrame s (hushOf four) 20).byte 1 = 20 := by
  obtain ⟨kind, -, station⟩ := ownFrame_head s 2 0 (hushFrame s (hushOf four) 20).data (by decide) (by decide)
  exact ⟨kind, station, rfl, by cases four <;> rfl, rfl⟩

/-- A HUSH sent: the guard runs, the HUSH waits, and the own stretch factor is raised. -/
theorem sendHush_sends (station : s.startup.station ≠ .conflict) (four : Bool) :
    (s.sendHush four).receive.guard = some { four := four, leftMs := 2000 } ∧
      (s.sendHush four).frames .hush = [hushFrame s (hushOf four) 20] ∧
      (s.sendHush four).stretch = { s.stretch with peer := s.stretch.peer.raise (hushOf four) 2000 } := by
  let u := s.setGuard (some { four := four, leftMs := 2000 })
  let v := u.post .hush (hushFrame s (hushOf four) 20)
  have sends : s.sendHush four = v.raisePeerStretch (hushOf four) 2000 := rfl
  have posted := u.post_only .hush (hushFrame s (hushOf four) 20)
  have stretch : v.stretch = s.stretch := (stretch_of_only (s := u) posted : v.stretch = u.stretch)
  refine ⟨?_, ?_, ?_⟩
  · rw [sends]
    exact (v.raisePeerStretch_only _ _ .guard (by decide)).trans (posted .guard (by decide))
  · rw [sends]
    exact (frames_same (v.raisePeerStretch_notes _ _ (.box .hush) (by simp))).trans
      (frames_post u _ _ station nofun nofun)
  · rw [sends, ← stretch]
    rfl

/-! ## FRAME_RECEIVED (R168) -/

theorem exec_frameReceived_other (station : s.startup.station ≠ .loading) (other : f.station ≠ s.startup.own) :
    exec (.frameReceived f) s = .next (s.filterFrame f).chooseOffer :=
  (if_neg station).trans (congrArg finish (if_neg other))

theorem filterFrame_accepted (h : accepted s.cfg f.id = true) : s.filterFrame f = (s.count .accepted).enqueue f :=
  if_pos h

theorem filterFrame_rejected (h : ¬ accepted s.cfg f.id = true) : s.filterFrame f = s.count .rejected := if_neg h

/-- An accepted frame counted and at the receive queue, before the crowding it may be. -/
def taken (s : State) (f : Frame) : State := (s.count .accepted).placeFrame f

theorem receive_count (s : State) (c : Counter) : (s.count c).receive = s.receive := by
  unfold count bump
  dsimp only
  split <;> rfl

theorem taken_only (s : State) (f : Frame) : Only (.queue :: noteParts) s (s.taken f) :=
  ((s.count_only .accepted).mono (by decide)).trans (placeFrame_only _ f)

theorem enqueue_taken (s : State) (f : Frame) : (s.count .accepted).enqueue f =
    if s.receive.queue.length + 1 < 12 then s.taken f else (s.taken f).crowding := by
  rw [enqueue_eq, receive_count]
  rfl

/-- What follows the frame's own place in the queue is at most a HUSH. -/
theorem enqueue_after (s : State) (f : Frame) : Only crowdParts (s.taken f) ((s.count .accepted).enqueue f) ∧
    Notes crowdNotes (s.taken f) ((s.count .accepted).enqueue f) := by
  rw [enqueue_taken]
  exact ⟨Only.ite (Only.refl _ _) (crowding_only _), Notes.ite (Notes.refl _ _) (crowding_notes _)⟩

theorem enqueue_unanswered (h : s.receive.queue.length + 1 < 12 ∨ s.startup.station = .conflict ∨
    ∃ g, s.receive.guard = some g ∧ (g.four = true ∨ s.receive.queue.length + 1 < 16)) :
    (s.count .accepted).enqueue f = s.taken f := by
  have station : (s.taken f).startup.station = s.startup.station := s.taken_only f .station (by decide)
  have guard : (s.taken f).receive.guard = s.receive.guard := s.taken_only f .guard (by decide)
  have full : 16 ≤ (s.taken f).receive.queue.length ↔ 16 ≤ s.receive.queue.length + 1 := by
    rw [taken, placeFrame_full_iff, receive_count]
  rw [enqueue_taken]
  split
  · rfl
  · next crowded =>
    refine crowding_unanswered ?_
    rw [station, guard, full]
    exact (h.resolve_left crowded).imp_right fun ⟨g, guard, paced⟩ => ⟨g, guard, paced.imp_right Nat.not_le.mpr⟩

theorem enqueue_answered (crowded : 12 ≤ s.receive.queue.length + 1) (conflict : s.startup.station ≠ .conflict)
    (h : s.receive.guard = none ∨
      ∃ g, s.receive.guard = some g ∧ g.four = false ∧ 16 ≤ s.receive.queue.length + 1) :
    (s.count .accepted).enqueue f = (s.taken f).sendHush (decide (16 ≤ s.receive.queue.length + 1)) := by
  have station : (s.taken f).startup.station = s.startup.station := s.taken_only f .station (by decide)
  have guard : (s.taken f).receive.guard = s.receive.guard := s.taken_only f .guard (by decide)
  have full : 16 ≤ (s.taken f).receive.queue.length ↔ 16 ≤ s.receive.queue.length + 1 := by
    rw [taken, placeFrame_full_iff, receive_count]
  have sends := crowding_answered (s := s.taken f) (by rw [station]; exact conflict) (by rw [guard, full]; exact h)
  rw [enqueue_taken, if_neg (Nat.not_lt.mpr crowded), sends]
  exact congrArg _ (decide_eq_decide.mpr full)

end State

/-- Settles O47: the frame's place by `State.placeFrame`, its answer by `State.crowding`, which the other leaves alone. -/
theorem receivedFrameIsFilteredAndQueued : Obligations.ReceivedFrameIsFilteredAndQueued := by
  intro f s other station matched q overflowed unanswered answers
  refine ⟨_, State.exec_frameReceived_other station other, fun unmatched => ?_, fun matches' => ?_,
    Changes.ends (s.filterFrame_only f) (s.filterFrame_notes f)⟩
  · rw [State.filterFrame_rejected fun accepts => unmatched (accepted_iff.mp accepts)]
    refine ⟨?_, Changes.ends (s.count_only _) (s.count_notes _)⟩
    rw [State.cell_chooseOffer, State.cell_count, if_pos rfl]
  · rw [State.filterFrame_accepted (accepted_iff.mpr matches'), State.cell_chooseOffer, State.receive_chooseOffer,
      State.cell_chooseOffer, State.flag_chooseOffer, State.stretch_chooseOffer, State.peers_chooseOffer,
      State.frames_chooseOffer]
    obtain ⟨only, notes⟩ := s.enqueue_after f
    have queue : ((s.count .accepted).enqueue f).receive.queue = (s.taken f).receive.queue := only .queue (by decide)
    have overflows : ((s.count .accepted).enqueue f).cell .receiveOverflows = (s.taken f).cell .receiveOverflows :=
      notes (.counter .receiveOverflows) (by decide)
    have flag : ((s.count .accepted).enqueue f).flag .rxqOverflow = (s.taken f).flag .rxqOverflow :=
      notes (.flag .rxqOverflow) (by decide)
    have before := s.receive_count .accepted
    have counted : (s.count .accepted).cell .receiveOverflows = s.cell .receiveOverflows :=
      s.count_notes .accepted (.counter .receiveOverflows) (by decide)
    have unflagged : (s.count .accepted).flag .rxqOverflow = s.flag .rxqOverflow :=
      s.count_notes .accepted (.flag .rxqOverflow) (by decide)
    have length : (s.count .accepted).receive.queue.length = q.length := by rw [before]
    refine ⟨?_, fun room => ?_, fun full => ?_, fun full keeps => ?_, fun front g back full safe split older plain => ?_,
      fun quiet => ?_, ?_⟩
    · have accepted : (s.taken f).cell .accepted = (s.count .accepted).cell .accepted :=
        State.placeFrame_notes _ f (.counter .accepted) (by decide)
      exact (notes (.counter .accepted) (by decide)).trans (accepted.trans ((s.cell_count _ _).trans (if_pos rfl)))
    · rw [queue, overflows, flag, State.taken, State.placeFrame_room (length.trans_lt room), before]
      exact ⟨rfl, counted, unflagged⟩
    · obtain ⟨lost, set⟩ := State.placeFrame_overflowed (s := s.count .accepted) (f := f) (full.trans_eq length.symm)
      rw [counted] at lost
      refine ⟨?_, ?_⟩
      · rw [State.cell_chooseOffer, overflows]
        exact lost
      · rw [State.flag_chooseOffer, flag]
        exact set
    · rw [queue, State.taken, State.placeFrame_discards (full.trans_eq length.symm) (by rw [before]; exact keeps),
        State.queue_overflow, before]
    · rw [queue, State.taken, State.placeFrame_gives_way (full.trans_eq length.symm) safe (by rw [before]; exact split) older
        plain, State.queue_overflow]
      rfl
    · have placed := s.taken_only f
      rw [State.enqueue_unanswered quiet]
      refine ⟨placed .guard (by decide), State.stretch_of_only placed, placed .peers (by decide), ?_⟩
      exact (State.frames_same (State.placeFrame_notes _ f (.box .hush) (by decide))).trans (s.frames_count _ _)
    · rintro ⟨crowded, conflict, paced⟩ factor
      have placed := s.taken_only f
      have station : (s.taken f).startup.station = s.startup.station := placed .station (by decide)
      have own : (s.taken f).startup.own = s.startup.own := (placed .straps (by decide)).1
      have hush : State.hushOf (decide (16 ≤ q.length + 1)) = factor := if_congr decide_eq_true_iff rfl rfl
      obtain ⟨guard, frames, stretch⟩ :=
        State.sendHush_sends (s := s.taken f) (by rw [station]; exact conflict) (decide (16 ≤ q.length + 1))
      obtain ⟨kind, sender, bytes, first, second⟩ := State.hushFrame_fields (s.taken f) (decide (16 ≤ q.length + 1))
      rw [State.enqueue_answered crowded conflict paced]
      refine ⟨guard, ⟨_, frames, kind, sender.trans own, bytes, first.trans hush, second⟩, ?_⟩
      rw [stretch, State.stretch_of_only placed, hush]
      rfl

end Sys2Proof.Machine
end

section
/-! PROOFS. The entry to CONFLICT on a frame with the own number (O48). -/

namespace Sys2Proof.Machine

open Sys2Proof

/-- The entry to CONFLICT keeps the STATUS mailbox alone (R173). -/
theorem Boxes.held_onlyStatus (b : Boxes) (x : Box) : b.onlyStatus.held x = if x = .status then b.held x else [] := by
  by_cases status : x = .status
  · subst status
    rfl
  · rw [if_neg status, ← Boxes.held_emptyBoxes x]
    cases x with
    | status => exact absurd rfl status
    | _ => rfl

namespace State

variable {s : State} {f : Frame}

theorem exec_frameReceived_loading (loading : s.startup.station = .loading) :
    exec (.frameReceived f) s = .next s.chooseOffer := if_pos loading

theorem exec_frameReceived_own_conflict (own : f.station = s.startup.own) (conflict : s.startup.station = .conflict) :
    exec (.frameReceived f) s = .next s.chooseOffer := by
  have receives : s.receiveFrame f = s := (if_pos own).trans (if_pos conflict)
  exact (if_neg (by rw [conflict]; decide)).trans (congrArg finish receives)

theorem exec_frameReceived_own (own : f.station = s.startup.own)
    (station : s.startup.station = .joining ∨ s.startup.station = .running) :
    exec (.frameReceived f) s = .next s.enterConflict.chooseOffer := by
  have loaded : s.startup.station ≠ .loading ∧ s.startup.station ≠ .conflict := by
    rcases station with is | is <;> rw [is] <;> decide
  exact (if_neg loaded.1).trans (congrArg finish ((if_pos own).trans (if_neg loaded.2)))

/-! ## The station in CONFLICT (R184) -/

/-- The station in CONFLICT, before its safe logic hears of it. -/
def conflicted (s : State) : State := s.quiet.setFlag .conflict

theorem enterConflict_accepting (h : s.transmit.boxes.holdsAccept = true) : s.enterConflict = s.coldReset := if_pos h

theorem enterConflict_plain (h : s.transmit.boxes.holdsAccept = false) :
    s.enterConflict = s.conflicted.setSafe { s.safe with conflict := true } :=
  if_neg (by rw [h]; decide)

theorem quiet_only (s : State) :
    Only [.station, .joining, .boxes, .statusTimer, .readingTimer, .emitters, .scrub, .detector] s s.quiet := by
  intro p _
  cases p <;> first | rfl | exact ⟨rfl, rfl⟩ | exact ⟨rfl, rfl, rfl⟩ | contradiction

theorem conflicted_only (s : State) :
    Only [.station, .joining, .boxes, .statusTimer, .readingTimer, .emitters, .scrub, .detector, .flagBits, .alert] s
      s.conflicted := s.quiet_only.append (writeFlag_only _ _ _)

theorem frames_conflicted (s : State) (b : Box) : s.conflicted.frames b = if b = .status then s.frames b else [] := by
  show (s.transmit.boxes.onlyStatus.held b).map _ = _
  rw [Boxes.held_onlyStatus]
  split <;> rfl

theorem flag_conflicted (s : State) {g : Flag} (other : g ≠ .conflict) : s.conflicted.flag g = s.flag g :=
  flag_writeFlag_ne s.quiet true other.symm

/-- The CONFLICT member enters the set of an INLET (R101). -/
theorem conflicted_inlet (inlet : s.startup.role = .inlet) :
    (s.conflicted.setSafe { s.safe with conflict := true }).safe = { s.safe with conflict := true } ∧
      (s.safe.nonempty = false →
        (s.conflicted.setSafe { s.safe with conflict := true }).regime = .safe ∧
        (s.conflicted.setSafe { s.safe with conflict := true }).flag .safeActive = true ∧
        (s.conflicted.setSafe { s.safe with conflict := true }).ramps.damper.target = s.cfg.mix.safeDamper ∧
        (s.conflicted.setSafe { s.safe with conflict := true }).ramps.blower.target = s.cfg.mix.safeBlower) := by
  have handed := s.conflicted.setSafe_handed { s.safe with conflict := true } inlet
  refine ⟨handed.set inlet nofun, fun empty => ?_⟩
  obtain ⟨active, regime, damper, blower⟩ :=
    handed.entered inlet nofun empty (SafeSet.nonempty_iff.mpr (.inr (.inl rfl)))
  exact ⟨regime, active, damper, blower⟩

/-- Another role keeps no safe-source set. -/
theorem conflicted_elsewhere (other : s.startup.role ≠ .inlet) (q : SafeSet) :
    s.conflicted.setSafe q = s.conflicted :=
  setSafe_of_idle (Bool.eq_false_iff.mpr fun works => other (s.conflicted.listWorks_iff.mp works).1) q

end State

/-- Settles O48: the entry to CONFLICT through `State.conflicted`, the safe logic through `setSafe_handed`. -/
theorem ownNumberMakesTheConflict : Obligations.OwnNumberMakesTheConflict := by
  intro f s
  refine ⟨fun loading => ⟨_, State.exec_frameReceived_loading loading, Changes.choice s⟩,
    fun own conflict => ⟨_, State.exec_frameReceived_own_conflict own conflict, Changes.choice s⟩,
    fun own station => ⟨fun accepting => ?_, fun plain => ?_⟩⟩
  · refine ⟨_, State.exec_frameReceived_own own station, ?_⟩
    rw [State.enterConflict_accepting accepting, State.coldReset_chooseOffer]
    exact s.coldReset_resetState
  · refine ⟨_, State.exec_frameReceived_own own station, ?_⟩
    rw [State.enterConflict_plain plain]
    have only := s.conflicted.setSafe_only { s.safe with conflict := true }
    have notes := s.conflicted.setSafe_notes { s.safe with conflict := true }
    let t := s.conflicted.setSafe { s.safe with conflict := true }
    have chosen : Only (.offer :: .safeSet :: regimeParts) s.conflicted t.chooseOffer :=
      (only.mono (by decide)).trans (t.chooseOffer_only.mono (by decide))
    have emitters : t.chooseOffer.emitters = resetEmitters := chosen .emitters (by decide)
    refine ⟨chosen .station (by decide), chosen .joining (by decide), ?_, fun b => ?_, chosen .statusTimer (by decide),
      chosen .readingTimer (by decide), chosen .detector (by decide), fun n => ?_, ?_, chosen .scrub (by decide),
      fun inlet => ?_, fun other => ?_, fun c quiet => ?_, fun g other quiet => ?_, ?_⟩
    · exact (State.flag_chooseOffer _ _).trans
        ((notes (.flag .conflict) (by decide)).trans (State.flag_writeFlag_same _ _ _))
    · exact (State.frames_chooseOffer _ _).trans
        ((State.frames_same (notes (.box b) (by simp))).trans (s.frames_conflicted b))
    · rw [emitters]
      exact tabulate_get _ n
    · rw [emitters]
      rfl
    · obtain ⟨set, entered⟩ := State.conflicted_inlet inlet
      rw [State.flag_chooseOffer, State.ramps_chooseOffer]
      exact ⟨(t.chooseOffer_only .safeSet (by decide)).trans set, fun empty =>
        (entered empty).imp_left (t.chooseOffer_only .regime (by decide)).trans⟩
    · rw [State.conflicted_elsewhere other]
      have chosen := s.conflicted.chooseOffer_only
      exact ⟨chosen .safeSet (by decide), chosen .regime (by decide), State.ramps_chooseOffer _⟩
    · rw [State.cell_chooseOffer]
      rcases quiet with other | travel
      · rw [State.conflicted_elsewhere other]
        rfl
      · exact notes (.counter c) (by simpa using travel)
    · rw [State.flag_chooseOffer]
      rcases quiet with elsewhere | ⟨safe, stall, rollover⟩
      · rw [State.conflicted_elsewhere elsewhere, s.flag_conflicted other]
      · exact (notes (.flag g) (by simp [safe, stall, rollover])).trans (s.flag_conflicted other)
    · exact s.conflicted_only.seq chosen (by decide) (by decide)

end Sys2Proof.Machine
end

section
/-! PROOFS. The stretch and the guard (O49): HUSH_TAKEN, GUARD_EXPIRY and STRETCH_END. -/

namespace Sys2Proof.Machine

open Sys2Proof

namespace State

variable {s t : State}

/-! ## A HUSH taken (R33, R171, log 25) -/

theorem hushFactor_weak {b : Nat} (weak : b < 2) : hushFactor b = none := if_pos weak

theorem hushFactor_strong {b : Nat} (strong : 2 ≤ b) : hushFactor b = some (if b < 4 then 2 else 4) := by
  refine (if_neg (Nat.not_lt.mpr strong)).trans ?_
  split <;> rfl

/-- Both parts of the stretch raised, over records marked stale by the factor before. -/
def stretched (s : State) (factor durationMs : Nat) : State :=
  s.latchStale.setStretch
    { peer := s.stretch.peer.raise factor durationMs, interval := s.stretch.interval.raise factor durationMs }

theorem takeHush_weak {f : Frame} (weak : f.byte 0 < 2) : s.takeHush f = s.count .hushHeard := by
  unfold takeHush
  rw [hushFactor_weak weak]

theorem takeHush_strong {f : Frame} (strong : 2 ≤ f.byte 0) : s.takeHush f =
    (s.count .hushHeard).stretched (if f.byte 0 < 4 then 2 else 4) (hushDuration (f.byte 1)) := by
  unfold takeHush
  rw [hushFactor_strong strong]
  rfl

theorem takeHush_counted (s : State) (f : Frame) :
    (s.takeHush f).cell .hushHeard = (s.cell .hushHeard).add 1 := by
  have counted : (s.count .hushHeard).cell .hushHeard = (s.cell .hushHeard).add 1 :=
    (s.cell_count _ _).trans (if_pos rfl)
  rcases Nat.lt_or_ge (f.byte 0) 2 with weak | strong
  · rw [takeHush_weak weak, counted]
  · rw [takeHush_strong strong]
    exact counted

theorem latchedEntry_present {e : PeerEntry} {i : PeerInfo} (present : e.presence = .present i) :
    s.latchedEntry e = { e with presence := .present { i with readings := i.readings.map fun r =>
      { r with stale := r.stale || decide (s.cfg.staleTimeMs * s.stretch.peer.factor ≤ r.ageMs) } } } := by
  unfold latchedEntry
  rw [present]
  rfl

theorem latchedEntry_other {e : PeerEntry} (other : ∀ i, e.presence ≠ .present i) : s.latchedEntry e = e := by
  unfold latchedEntry
  split
  · rfl
  · rfl
  · next i present => exact absurd present (other i)

theorem peers_latchStale (s : State) (n : Fin 8) : s.latchStale.peers[n] = s.latchedEntry s.peers[n] :=
  mapVector_get s.latchedEntry s.peers n

/-- An update of the factor's own parts, the peer table and the configuration aside, marks the same records. -/
theorem latchedEntry_congr (cfg : t.cfg = s.cfg) (stretch : t.stretch = s.stretch) (e : PeerEntry) :
    t.latchedEntry e = s.latchedEntry e := by
  have limit : t.staleLimit = s.staleLimit := by
    unfold staleLimit
    rw [cfg, stretch]
  unfold latchedEntry isStale
  rw [limit]

/-! ## The factor's fall (R28, R30) -/

theorem checkSilence_late {n : Fin 8} {i : PeerInfo} (present : s.peers[n].presence = .present i)
    (late : s.silenceLimit i ≤ i.lastStatusMs) : s.checkSilence n = s.goSilent n := by
  unfold checkSilence
  rw [present]
  exact if_pos late

theorem checkSilence_early {n : Fin 8}
    (early : ∀ i, s.peers[n].presence = .present i → i.lastStatusMs < s.silenceLimit i) : s.checkSilence n = s := by
  unfold checkSilence
  split
  · rfl
  · rfl
  · next i present => exact if_neg (Nat.not_le.mpr (early i present))

/-- A peer at its limit goes SILENT, with the flag of a lost peer (R29). -/
theorem goSilent_silences {n : Fin 8} {i : PeerInfo} (present : s.peers[n].presence = .present i) :
    (s.goSilent n).peers[n].presence = .silent i.silenced ∧ (s.goSilent n).flag .peerLost = true := by
  obtain ⟨only, notes⟩ := goSilent_after present
  have peers : (s.goSilent n).peers = (s.silencedEntry n i).peers := only .peers (by decide)
  refine ⟨?_, (notes (.flag .peerLost) (by decide)).trans (s.silencedEntry_peerLost n i)⟩
  rw [peers, silencedEntry_same]

/-- Either nothing happens, or the entry, at its limit, goes SILENT. -/
theorem checkSilence_cases (s : State) (n : Fin 8) : s.checkSilence n = s ∨
    ∃ i, s.peers[n].presence = .present i ∧ s.silenceLimit i ≤ i.lastStatusMs ∧ s.checkSilence n = s.goSilent n := by
  by_cases late : ∃ i, s.peers[n].presence = .present i ∧ s.silenceLimit i ≤ i.lastStatusMs
  · obtain ⟨i, present, late⟩ := late
    exact .inr ⟨i, present, late, checkSilence_late present late⟩
  · exact .inl (checkSilence_early fun i present => Nat.not_le.mp fun reached => late ⟨i, present, reached⟩)

/-- The measure of one entry leaves the others. -/
theorem checkSilence_ne {n m : Fin 8} (ne : m ≠ n) : (s.checkSilence n).peers[m] = s.peers[m] := by
  rcases s.checkSilence_cases n with same | ⟨i, present, -, silences⟩
  · rw [same]
  · have peers : (s.goSilent n).peers = (s.silencedEntry n i).peers := (goSilent_after present).1 .peers (by decide)
    rw [silences, peers, silencedEntry_ne s i ne]

/-- A lost peer stays flagged whatever peer is measured. -/
theorem checkSilence_peerLost (n : Fin 8) (lost : s.flag .peerLost = true) :
    (s.checkSilence n).flag .peerLost = true := by
  rcases s.checkSilence_cases n with same | ⟨i, present, -, silences⟩
  · rw [same, lost]
  · rw [silences]
    exact (goSilent_silences present).2

theorem silenceLimit_checkSilence (n : Fin 8) (i : PeerInfo) : (s.checkSilence n).silenceLimit i = s.silenceLimit i := by
  have peer : (s.checkSilence n).stretch.peer = s.stretch.peer := s.checkSilence_only n .stretch (by decide)
  unfold silenceLimit
  rw [peer]

/-- A list of entries measured without this one leaves it. -/
theorem measured_elsewhere {m : Fin 8} (l : List (Fin 8)) (outside : m ∉ l) (s : State) :
    (l.foldl checkSilence s).peers[m] = s.peers[m] := by
  induction l generalizing s with
  | nil => rfl
  | cons n l ih =>
    obtain ⟨ne, outside⟩ := not_or.mp (mt List.mem_cons.mpr outside)
    exact (ih outside _).trans (checkSilence_ne ne)

theorem measured_peerLost (l : List (Fin 8)) (s : State) (lost : s.flag .peerLost = true) :
    (l.foldl checkSilence s).flag .peerLost = true := by
  induction l generalizing s with
  | nil => exact lost
  | cons n l ih => exact ih _ (checkSilence_peerLost n lost)

/-- A PRESENT entry below its limit, and any other entry, stays when a list of entries is measured. -/
theorem measured_early {m : Fin 8} (l : List (Fin 8)) (s : State)
    (early : ∀ i, s.peers[m].presence = .present i → i.lastStatusMs < s.silenceLimit i) :
    (l.foldl checkSilence s).peers[m] = s.peers[m] := by
  induction l generalizing s with
  | nil => rfl
  | cons n l ih =>
    have same : (s.checkSilence n).peers[m] = s.peers[m] := by
      by_cases is : m = n
      · subst m
        rw [checkSilence_early early]
      · exact checkSilence_ne is
    refine (ih _ fun i present => ?_).trans same
    rw [silenceLimit_checkSilence]
    exact early i (same ▸ present)

/-- A PRESENT entry at its limit goes SILENT when it is among the entries measured. -/
theorem measured_late {m : Fin 8} {i : PeerInfo} (l : List (Fin 8)) (once : l.Nodup) (among : m ∈ l) (s : State)
    (present : s.peers[m].presence = .present i) (late : s.silenceLimit i ≤ i.lastStatusMs) :
    (l.foldl checkSilence s).peers[m].presence = .silent i.silenced ∧
      (l.foldl checkSilence s).flag .peerLost = true := by
  induction l generalizing s with
  | nil => exact absurd among List.not_mem_nil
  | cons n l ih =>
    obtain ⟨fresh, once⟩ := List.nodup_cons.mp once
    rw [List.foldl_cons]
    rcases List.mem_cons.mp among with rfl | later
    · obtain ⟨silent, lost⟩ := goSilent_silences present
      rw [checkSilence_late present late]
      exact ⟨(congrArg PeerEntry.presence (measured_elsewhere l fresh _)).trans silent, measured_peerLost l _ lost⟩
    · have ne : m ≠ n := fun is => fresh (is ▸ later)
      refine ih once later _ ?_ ?_
      · rw [checkSilence_ne ne, present]
      · rw [silenceLimit_checkSilence]
        exact late

theorem endPeerStretch_falls (fell : 1 < s.stretch.peer.factor) :
    s.endPeerStretch = (s.setStretch { s.stretch with peer := noStretch }).limitsFell := if_pos fell

theorem endPeerStretch_flat (flat : s.stretch.peer.factor ≤ 1) :
    s.endPeerStretch = s.setStretch { s.stretch with peer := noStretch } := if_neg (Nat.not_lt.mpr flat)

/-- The end of f returns it to 1, and leaves the stretch of the intervals (R171). -/
theorem stretch_endPeerStretch (s : State) :
    s.endPeerStretch.stretch = { s.stretch with peer := { factor := 1, left := none } } := by
  rcases Nat.lt_or_ge 1 s.stretch.peer.factor with fell | flat
  · rw [endPeerStretch_falls fell, stretch_of_only (limitsFell_only _)]
    rfl
  · rw [endPeerStretch_flat flat]
    rfl

theorem limitsFell_endPeerStretch (s : State) : LimitsFell s s.endPeerStretch := by
  let u := s.setStretch { s.stretch with peer := noStretch }
  have limit (i : PeerInfo) : u.silenceLimit i = 3 * i.intervalMs := Nat.mul_one _
  constructor
  case silenced =>
    intro n i present fell late
    rw [endPeerStretch_falls fell]
    exact (measured_late (s := u) _ (List.nodup_finRange 8) (List.mem_finRange n) present ((limit i).trans_le late)).imp_left
      fun silent => ⟨_, silent⟩
  case stay =>
    intro n stays
    rcases Nat.lt_or_ge 1 s.stretch.peer.factor with fell | flat
    · rw [endPeerStretch_falls fell]
      refine measured_early (s := u) _ fun i present => ?_
      rw [limit]
      exact (stays i present).resolve_left (Nat.not_le.mpr fell)
    · rw [endPeerStretch_flat flat]
      rfl

theorem limitsFell_chooseOffer (h : LimitsFell s t) : LimitsFell s t.chooseOffer := by
  have peers := t.peers_chooseOffer
  obtain ⟨silenced, stay⟩ := h
  refine ⟨fun n i present fell late => ?_, fun n stays => ?_⟩
  · rw [peers, flag_chooseOffer]
    exact silenced n i present fell late
  · rw [peers]
    exact stay n stays

/-! ## The events -/

theorem exec_guardExpiry (running : s.receive.guard.isSome = true) :
    exec .guardExpiry s = .next (s.setGuard none).chooseOffer := if_pos running

theorem exec_stretchEnd_interval (running : s.stretch.interval.left.isSome = true) :
    exec (.stretchEnd .interval) s = .next (s.setStretch { s.stretch with interval := noStretch }).chooseOffer :=
  if_pos running

theorem exec_stretchEnd_peer (running : s.stretch.peer.left.isSome = true) :
    exec (.stretchEnd .peer) s = .next s.endPeerStretch.chooseOffer := if_pos running

end State

theorem Delivered.hushTaken {s : State} {f : Frame} {rest : List Frame} (h : Delivered s 2 f rest) :
    exec .hushTaken s = .next (s.dequeue.takeHush f).chooseOffer := by
  show execHushTaken s = _
  unfold execHushTaken
  rw [h.headOf]
  rfl

/-- Settles O49: the raise marks each entry by `latchedEntry`, the fall measures the entries one by one. -/
theorem hushGuardAndStretch : Obligations.HushGuardAndStretch := by
  refine ⟨?_, fun s => ⟨fun running => ?_, fun running => ?_, fun running => ?_⟩⟩
  · intro s f rest delivered factor duration raised
    refine ⟨_, delivered.hushTaken, ?_, ?_, fun weak => ?_, fun strong => ?_,
      Changes.ends (s.dequeue.takeHush_only f).taken (s.dequeue.takeHush_notes f).taken⟩
    · rw [State.queue_chooseOffer]
      exact (s.dequeue.takeHush_only f .queue (by decide)).trans delivered.dequeued
    · rw [State.cell_chooseOffer]
      exact s.dequeue.takeHush_counted f
    · rw [State.takeHush_weak weak]
      exact Changes.ends (s.dequeue.count_only _).taken (s.dequeue.count_notes _).taken
    · have counted := s.dequeue.count_only .hushHeard
      have stretch : (s.dequeue.count .hushHeard).stretch = s.stretch :=
        (State.stretch_of_only (s := s.dequeue) counted : _ = s.dequeue.stretch)
      have cfg : (s.dequeue.count .hushHeard).cfg = s.cfg := counted .cfg (by decide)
      have peers : (s.dequeue.count .hushHeard).peers = s.peers := counted .peers (by decide)
      have entry (n : Fin 8) : ((s.dequeue.count .hushHeard).stretched factor duration).peers[n] =
          s.latchedEntry s.peers[n] := by
        refine (State.peers_latchStale _ n).trans ?_
        rw [State.latchedEntry_congr cfg stretch, peers]
      rw [State.takeHush_strong strong, State.stretch_chooseOffer, State.peers_chooseOffer]
      refine ⟨?_, fun n => ⟨fun i present => ?_, fun other => ?_⟩⟩
      · show Stretch.mk _ _ = _
        rw [stretch]
        rfl
      · exact (entry n).trans (State.latchedEntry_present present)
      · exact (entry n).trans (State.latchedEntry_other other)
  · refine ⟨_, State.exec_guardExpiry running, ?_, Changes.ends (s.setGuard_only _) (s.setGuard_notes _)⟩
    rw [State.receive_chooseOffer]
    rfl
  · refine ⟨_, State.exec_stretchEnd_interval running, ?_,
      Changes.ends (s.setIntervalStretch_only _) (s.setIntervalStretch_notes _)⟩
    rw [State.stretch_chooseOffer]
    rfl
  · refine ⟨_, State.exec_stretchEnd_peer running, ?_, State.limitsFell_chooseOffer s.limitsFell_endPeerStretch,
      Changes.ends s.endPeerStretch_only s.endPeerStretch_notes⟩
    rw [State.stretch_chooseOffer, State.stretch_endPeerStretch]

end Sys2Proof.Machine
end

section
/-! PROOFS. The dispatcher's discards (O50, R172, R175). -/

namespace Sys2Proof.Machine

open Sys2Proof

/-- The kinds whose length is not checked have no length to fall short of. -/
theorem payloadLength_unchecked {k : Nat} (unchecked : checkedKind k = false) : payloadLength k = 0 := by
  have outside : ¬ (1 ≤ k ∧ k ≤ 8) := of_decide_eq_false unchecked
  unfold payloadLength
  split
  case h_9 => rfl
  all_goals omega

theorem countedUnknown_iff {f : Frame} : countedUnknown f = true ↔
    f.kind = 0 ∨ 10 ≤ f.kind ∨ (f.kind ≠ 9 ∧ f.data.length < payloadLength f.kind) := by
  unfold countedUnknown
  split
  · next checked =>
    have inside : 1 ≤ f.kind ∧ f.kind ≤ 8 := of_decide_eq_true checked
    rw [decide_eq_true_iff]
    omega
  · next unchecked =>
    have unchecked := Bool.eq_false_iff.mpr unchecked
    have outside : ¬ (1 ≤ f.kind ∧ f.kind ≤ 8) := of_decide_eq_false unchecked
    rw [payloadLength_unchecked unchecked, decide_eq_true_iff]
    omega

namespace State

variable {s : State} {f : Frame} {rest : List Frame}

theorem silentlyDiscarded_iff : s.silentlyDiscarded f = true ↔
    f.kind = 9 ∨ (s.startup.role ≠ .inlet ∧ (f.kind = 1 ∨ f.kind = 3 ∨ f.kind = 5)) ∨
      (f.kind = 8 ∧ s.takesRequest f = false) := by
  simp only [silentlyDiscarded, Bool.or_eq_true, Bool.and_eq_true, decide_eq_true_iff, Bool.not_eq_true', or_assoc]

/-- Outside CONFLICT every REQUEST for the station is taken (R177). -/
theorem takesRequest_of_target (target : f.byte 0 = s.startup.own.val) (station : s.startup.station ≠ .conflict) :
    s.takesRequest f = true :=
  Bool.and_eq_true_iff.mpr ⟨decide_eq_true target, Bool.or_eq_true_iff.mpr (.inl (decide_eq_true station))⟩

theorem takesRequest_of_other (other : f.byte 0 ≠ s.startup.own.val) : s.takesRequest f = false :=
  Bool.and_eq_false_iff.mpr (.inl (decide_eq_false other))

/-- What the dispatcher does with the frame at the head of the queue. -/
def discarded (s : State) (f : Frame) : State :=
  if countedUnknown f then s.dequeue.count .unknownKinds else if s.silentlyDiscarded f then s.dequeue else s

theorem exec_frameDiscarded (queue : s.receive.queue = f :: rest) (station : s.startup.station ≠ .loading) :
    exec .frameDiscarded s = .next (s.discarded f).chooseOffer := by
  show execFrameDiscarded s = _
  unfold execFrameDiscarded discarded
  rw [queue]
  dsimp only
  rw [if_neg station]
  split
  · rfl
  · split <;> rfl

theorem discarded_unknown (unknown : countedUnknown f = true) : s.discarded f = s.dequeue.count .unknownKinds :=
  if_pos unknown

theorem discarded_unowned (known : countedUnknown f ≠ true) (unowned : s.silentlyDiscarded f = true) :
    s.discarded f = s.dequeue := (if_neg known).trans (if_pos unowned)

theorem discarded_owned (known : countedUnknown f ≠ true) (owned : s.silentlyDiscarded f ≠ true) : s.discarded f = s :=
  (if_neg known).trans (if_neg owned)

theorem queue_dequeue (queue : s.receive.queue = f :: rest) : s.dequeue.receive.queue = rest := by
  show s.receive.queue.drop 1 = rest
  rw [queue]
  rfl

end State

/-- Settles O50: each of the three fates of the head by `State.discarded`. -/
theorem frameDiscardedByTheDispatcher : Obligations.FrameDiscardedByTheDispatcher := by
  intro s f rest queue station unknown unowned
  refine ⟨_, State.exec_frameDiscarded queue station, fun counts => ?_, fun known discards => ?_,
    fun known owned calm => ?_⟩
  · rw [State.discarded_unknown (countedUnknown_iff.mpr counts)]
    refine ⟨?_, s.unknownKind_counted⟩
    rw [State.queue_chooseOffer]
    exact (s.dequeue.count_only _ .queue (by decide)).trans (State.queue_dequeue queue)
  · have silent : s.silentlyDiscarded f = true := State.silentlyDiscarded_iff.mpr <|
      discards.imp_right (Or.imp And.symm (And.imp_right State.takesRequest_of_other))
    rw [State.discarded_unowned (mt countedUnknown_iff.mp known) silent]
    refine ⟨?_, Changes.ends s.dequeue_only s.dequeue_notes⟩
    rw [State.queue_chooseOffer]
    exact State.queue_dequeue queue
  · have kept : s.silentlyDiscarded f ≠ true := fun silent => by
      rcases State.silentlyDiscarded_iff.mp silent with answer | elsewhere | ⟨request, untaken⟩
      · exact owned (.inl answer)
      · exact owned (.inr (.inl elsewhere.symm))
      · have target : f.byte 0 = s.startup.own.val := not_not.mp fun other => owned (.inr (.inr ⟨request, other⟩))
        have taken := State.takesRequest_of_target target (calm.resolve_left (not_not_intro request))
        exact absurd (taken.symm.trans untaken) (by decide)
    rw [State.discarded_owned (mt countedUnknown_iff.mp known) kept]
    exact Changes.choice s

end Sys2Proof.Machine
end

section
/-! PROOFS. The step (O1, O2), the resets carried out (O4), and the conditions at reset (O55). -/

namespace Sys2Proof.Machine

open Sys2Proof

/-- Settles O1. -/
theorem stepRunsTheFrontCommand : Obligations.StepRunsTheFrontCommand := fun _ _ _ => rfl

/-! ## One millisecond (log 1) -/

/-- The parts that hold a time. -/
abbrev timedParts : List Part :=
  [.joining, .records, .sweep, .inputs, .source, .tracker, .peers, .detector, .plumes, .plumeHold, .demands, .safeSet,
    .emitters, .scrub, .damper, .blower, .settle, .accountingTimer, .withdrawal, .statusTimer, .readingTimer, .guard,
    .stretch, .interval]

theorem State.tick_only (s : State) : Only timedParts s s.tick := by
  intro p hp
  cases p <;> first | rfl | exact ⟨rfl, rfl⟩ | exact ⟨rfl, rfl, rfl⟩ | contradiction

theorem State.tick_notes (s : State) : Notes [] s s.tick := Notes.plain rfl rfl rfl

theorem InputUnit.get_tick (u : InputUnit) (i : Input) : u.tick.get i = (u.get i).tick := by
  cases i with
  | din n => exact mapVector_get Debounced.tick u.din n
  | force | ign | rev => rfl

theorem PeerEntry.tick_present {e : PeerEntry} {i : PeerInfo} (h : e.presence = .present i) : e.tick.presence =
    .present { i with lastStatusMs := i.lastStatusMs + 1, readings := i.readings.map Reading.tick } := by
  unfold PeerEntry.tick
  rw [h]

/-- Only a PRESENT entry has times that run (R23, R29). -/
theorem PeerEntry.tick_other {e : PeerEntry} (h : ∀ i, e.presence ≠ .present i) : e.tick = e := by
  unfold PeerEntry.tick
  split
  case h_3 i present => exact absurd present (h i)
  all_goals rfl

theorem PeerEntry.tick_tally (e : PeerEntry) : e.tick.tally = e.tally := by
  unfold PeerEntry.tick
  split <;> rfl

/-- Settles O2: the fields of `State.tick`, its vectors place by place. -/
theorem emptyQueuePassesAMillisecond : Obligations.EmptyQueuePassesAMillisecond := by
  intro s idle down
  have steps : step s = .next s.tick := by
    unfold step
    rw [idle]
  have peer (n : Fin 8) : s.tick.peers[n] = s.peers[n].tick := mapVector_get PeerEntry.tick s.peers n
  refine ⟨_, steps, rfl, rfl, rfl, mapVector_get SlotRecord.tick _, InputUnit.get_tick _, rfl, rfl, fun n => ?_, rfl, rfl,
    rfl, rfl, rfl, rfl, mapVector_get _ _, mapVector_get Emitter.tick _, rfl, rfl, rfl, rfl, rfl, rfl, rfl, s.tick_only,
    s.tick_notes⟩
  rw [peer]
  refine ⟨PeerEntry.tick_tally _, fun absent => ?_, fun i silent => ?_, fun i present => PeerEntry.tick_present present⟩
  · rw [PeerEntry.tick_other (by rw [absent]; nofun), absent]
  · rw [PeerEntry.tick_other (by rw [silent]; nofun), silent]

/-! ## The resets (R180, R185) -/

theorem State.exec_powerOnReset (s : State) : exec .powerOnReset s = .next s.coldReset :=
  congrArg Host.Outcome.next s.coldReset_chooseOffer

theorem State.exec_fullReset_pending {s : State} (pending : s.startup.pendingReset = true) :
    exec .fullResetCarriedOut s = .next s.coldReset := (if_pos pending).trans s.exec_powerOnReset

theorem State.exec_fullReset_clear {s : State} (clear : s.startup.pendingReset = false) :
    exec .fullResetCarriedOut s = .next s.chooseOffer := if_neg (by rw [clear]; decide)

/-- Settles O4: both resets are `State.coldReset`, which keeps the outcomes still to come. -/
theorem resetsLeaveTheResetState : Obligations.ResetsLeaveTheResetState := by
  intro s abandons
  refine ⟨⟨_, s.exec_powerOnReset, s.coldReset_resetState, rfl⟩, fun offer abandoned => ?_,
    fun pending => ⟨_, State.exec_fullReset_pending pending, s.coldReset_resetState, rfl⟩,
    fun clear => ⟨_, State.exec_fullReset_clear clear, Changes.choice s⟩⟩
  have settled : s.transmit.abandon = [] := by
    unfold Transmit.abandon
    rw [offer, abandoned]
    rfl
  rw [s.exec_powerOnReset, State.coldReset_of_settled settled]

/-! ## The conditions at reset -/

/-- With no flag set the ALERT pin is not asserted (R160). -/
theorem alertOf_clear (c : Cfg) {bits : Vector Bool 25} (clear : ∀ f : Flag, bits[f.index] = false) :
    alertOf c bits = false :=
  List.any_eq_false.mpr fun f _ => by rw [clear f]; exact Bool.false_ne_true

/-- Settles O55: at reset every list is empty, every flag clear and the safe-source set without a member. -/
theorem resetMeetsTheConditions : Obligations.ResetMeetsTheConditions := by
  intro p q s
  have flag (f : Flag) : s.flag f = false := State.flag_afterReset p q f
  have peer (n : Fin 8) : s.peers[n].presence = .absent := congrArg PeerEntry.presence (tabulate_get _ n)
  have rule (n : Fin 8) : s.rules[n].firing = false := congrArg RuleState.firing (tabulate_get _ n)
  have idle : resetChannel.sound := ⟨iff_of_true rfl rfl, rfl⟩
  have link : LinkBounded s :=
    { queue := Nat.zero_le _, sight := Nat.zero_le _, answer := Nat.zero_le _, score := Nat.zero_le _ }
  have lists : ListsBounded s :=
    { plumes := Nat.zero_le _, demands := Nat.zero_le _
      readings := fun n i present => absurd ((peer n).symm.trans present) nofun }
  have levels : LevelFlags s :=
    { safeActive := (flag _).trans resetSafeSet_nonempty.symm, conflict := flag _, passive := flag _
      withdrawn := flag _, rules := fun n => (flag _).trans (rule n).symm }
  exact ⟨(alertOf_clear s.cfg flag).symm, link, lists, List.Pairwise.nil, SafePosition.of_empty resetSafeSet_nonempty,
    ⟨idle, idle⟩, levels, fun _ => rfl, nofun, iff_of_false nofun (Nat.lt_irrefl 0)⟩

end Sys2Proof.Machine
end

section
/-! PROOFS. What every REQUEST shares, and the requests that are turned away (O54, R176, R177). -/

namespace Sys2Proof.Machine

open Sys2Proof

/-! ## What a REQUEST asks (R176) -/

theorem requestOf_query {argument : Nat} (h : argument ≤ 13) : requestOf 0 argument = .query := if_pos h

theorem requestOf_clearCounters {argument : Nat} (h : argument ≤ 8 ∨ argument = 255) :
    requestOf 1 argument = .clearCounters := if_pos h

/-- What the table of R176 does not list is unknown (R177). -/
theorem requestOf_unknown {code argument : Nat} (h : 6 ≤ code ∨ (code = 0 ∧ 13 < argument) ∨
    (code = 1 ∧ 8 < argument ∧ argument ≠ 255) ∨ (code = 4 ∧ 3 < argument)) : requestOf code argument = .unknown := by
  rcases h with high | ⟨rfl, beyond⟩ | ⟨rfl, beyond, some⟩ | ⟨rfl, beyond⟩
  · obtain ⟨k, rfl⟩ := Nat.exists_eq_add_of_le' high
    rfl
  · exact if_neg (Nat.not_le.mpr beyond)
  · exact if_neg (not_or.mpr ⟨Nat.not_le.mpr beyond, some⟩)
  · obtain ⟨k, rfl⟩ := Nat.exists_eq_add_of_le' beyond
    rfl

theorem Frame.asks_of {f : Frame} {code argument : Nat} (index : f.index.val = code) (byte : f.byte 1 = argument) :
    Frame.asks f = requestOf code argument := by
  unfold Frame.asks
  rw [index, byte]

theorem Frame.asks_code {f : Frame} {code : Nat} (index : f.index.val = code) :
    Frame.asks f = requestOf code (f.byte 1) := Frame.asks_of index rfl

/-- RESET ALL is the one REQUEST of its code and argument (R176). -/
theorem requestOf_resetAll {code argument : Nat} (h : requestOf code argument = .resetAll) :
    code = 4 ∧ argument = 3 := by
  unfold requestOf at h
  split at h
  case h_5 => split at h <;> first | cases h; done | exact ⟨rfl, rfl⟩
  all_goals first | cases h | (split at h <;> cases h)

/-- The command that carries out what a REQUEST asks (95, R176). -/
def Request.command : Request → Instr
  | .query => .query
  | .clearCounters => .clearCounters
  | .clearFlags => .clearFlags
  | .clearFilter => .clearFilter
  | .resetLink => .resetLink
  | .resetPlume => .resetPlume
  | .resetDemands => .resetDemands
  | .resetAll => .resetAll
  | .lampTest => .lampTest
  | .unknown => .unknownRequest

/-- What a REQUEST that is taken carries out (R177). -/
def Request.act : Request → State → Frame → State
  | .query => State.takeQuery
  | .clearCounters => fun t f => (t.answer f statusAccepted).clearGroup (f.byte 1)
  | .clearFlags => fun t f => (List.finRange 7).foldl (State.clearNamed (f.byte 1)) (t.answer f statusAccepted)
  | .clearFilter => fun t f => t.unlessMoving f fun u g => (u.answer g statusAccepted).clearFilter
  | .resetLink => fun t f => t.unlessMoving f State.resetLink
  | .resetPlume =>
    fun t f => t.unlessMoving f fun u g => (u.answer g statusAccepted).resetTimelineRecords.resetDetector
  | .resetDemands => fun t f => t.unlessMoving f fun u g => (u.answer g statusAccepted).resetDemands
  | .resetAll => fun t f => t.unlessMoving f State.acceptResetAll
  | .lampTest => fun t f => (t.answer f statusAccepted).setFlag .lampTest
  | .unknown => fun t f => t.answer f statusUnknown

theorem Request.exec_command (r : Request) (s : State) : exec r.command s = s.serve r r.act := by
  cases r <;> rfl

/-- The REQUESTs that a moving truck refuses (R177). -/
def Request.refusedMoving : Request → Bool
  | .clearFilter | .resetLink | .resetPlume | .resetDemands | .resetAll => true
  | .query | .clearCounters | .clearFlags | .lampTest | .unknown => false

theorem Request.act_moving {r : Request} (refuses : r.refusedMoving = true) {s : State} (moving : s.moving = true)
    (f : Frame) : r.act s f = s.answer f statusMoving := by
  cases r with
  | clearFilter | resetLink | resetPlume | resetDemands | resetAll => exact if_pos moving
  | _ => cases refuses

/-! ## Taking a REQUEST (R177) -/

section Serving

variable {s : State} {f : Frame} {rest : List Frame} {r : Request}

theorem Delivered.headRequest (h : Delivered s 8 f rest) (asks : Frame.asks f = r) : s.headRequest r = some f := by
  unfold State.headRequest
  rw [h.headOf]
  exact if_pos asks

/-- A REQUEST that is taken is carried out, and the event ends with the choice. -/
theorem Delivered.served (h : Delivered s 8 f rest) (asks : Frame.asks f = r) (takes : s.takesRequest f = true) :
    exec r.command s = .next (r.act s.dequeue f).chooseOffer := by
  rw [r.exec_command]
  unfold State.serve
  rw [h.headRequest asks]
  exact if_pos takes

theorem Asked.served {code : Nat} (h : Asked s code f rest) (asks : requestOf code (f.byte 1) = r) :
    exec r.command s = .next (r.act s.dequeue f).chooseOffer :=
  h.delivered.served ((Frame.asks_code h.code).trans asks) (State.takesRequest_of_target h.target h.station)

/-- A REQUEST that is not taken leaves the queue, and that is all. -/
theorem Delivered.unserved (h : Delivered s 8 f rest) (asks : Frame.asks f = r) (untaken : s.takesRequest f = false) :
    exec r.command s = .next s.dequeue.chooseOffer := by
  rw [r.exec_command]
  unfold State.serve
  rw [h.headRequest asks]
  exact if_neg (by rw [untaken]; decide)

theorem Delivered.dropped {kind : Nat} (h : Delivered s kind f rest) :
    s.dequeue.chooseOffer.receive.queue = rest ∧ Changes [.queue] [] s s.dequeue.chooseOffer := by
  refine ⟨?_, Changes.ends s.dequeue_only s.dequeue_notes⟩
  rw [State.queue_chooseOffer, h.dequeued]

/-- In CONFLICT a RESET ALL alone is taken (R177). -/
theorem State.takesRequest_of_conflict (conflict : s.startup.station = .conflict)
    (other : ¬ (f.index.val = 4 ∧ f.byte 1 = 3)) : s.takesRequest f = false := by
  refine Bool.and_eq_false_iff.mpr (.inr (Bool.or_eq_false_iff.mpr ⟨?_, ?_⟩))
  · exact decide_eq_false (not_not_intro conflict)
  · exact decide_eq_false fun asks => other (requestOf_resetAll asks)

end Serving

/-! ## Single-frame answers (R174, R177) -/

theorem answerHead_lt (f : Frame) (last : Bool) : answerHead f last < 256 := by
  have station := f.station.isLt
  have code := f.index.isLt
  unfold answerHead
  split <;> omega

theorem answerFrame_fields (s : State) (f : Frame) {status : Nat} (h : status < 256) :
    (answerFrame s f status).kind = 9 ∧ (answerFrame s f status).index = 0 ∧
    (answerFrame s f status).station = s.startup.own ∧ (answerFrame s f status).data.length = 8 ∧
    (answerFrame s f status).byte 0 = f.station.val + 8 * f.index.val + 128 ∧
    (answerFrame s f status).byte 2 = status ∧
    (answerFrame s f status).word 3 = 0 ∧ (answerFrame s f status).word 5 = 0 := by
  obtain ⟨kind, index, station⟩ := State.ownFrame_head s 9 0 (answerFrame s f status).data (by decide) (by decide)
  exact ⟨kind, Fin.ext index, station, rfl, byte1_value_of_lt (answerHead_lt f true), byte1_value_of_lt h,
    byte2_value (by decide), byte2_value (by decide)⟩

namespace State

variable {s t u : State} {f : Frame} {status : Nat}

theorem frames_answer_length (s : State) : (s.frames .answer).length = s.transmit.boxes.answer.length :=
  List.length_map _

theorem frames_hold_answer_room (room : (s.frames .answer).length < 16) (h : Held) :
    (s.hold .answer h).frames .answer = s.frames .answer ++ [h.frame] := by
  rw [frames_hold, Boxes.held_put_answer_room (s.frames_answer_length ▸ room), List.map_append]
  rfl

theorem frames_hold_answer_full (full : 16 ≤ (s.frames .answer).length) (h : Held) :
    (s.hold .answer h).frames .answer = s.frames .answer := by
  rw [frames_hold, Boxes.held_put_answer_full (s.frames_answer_length ▸ full)]
  rfl

theorem supersedes_answer_room (room : (s.frames .answer).length < 16) :
    s.transmit.boxes.supersedes .answer = false :=
  decide_eq_false (Nat.not_le.mpr (s.frames_answer_length ▸ room))

theorem supersedes_answer_full (full : 16 ≤ (s.frames .answer).length) :
    s.transmit.boxes.supersedes .answer = true := decide_eq_true (s.frames_answer_length ▸ full)

/-- An answer that is queued leaves every note but the ANSWER FIFO. -/
theorem hold_answer_notes_of_room (room : (s.frames .answer).length < 16) (h : Held) :
    Notes [.box .answer] s (s.hold .answer h) := (hold_changes_of_room (supersedes_answer_room room) h).notes

theorem hold_answered {h : Held} (kind : h.frame.kind = 9) (index : h.frame.index = 0)
    (station : h.frame.station = s.startup.own) (length : h.frame.data.length = 8)
    (head : h.frame.byte 0 = f.station.val + 8 * f.index.val + 128) (byte : h.frame.byte 2 = status) :
    Answered s (s.hold .answer h) f status where
  room room := ⟨h.frame, frames_hold_answer_room room h, kind, index, station, length, head, byte⟩
  full full := ⟨frames_hold_answer_full full h, hold_superseded (supersedes_answer_full full) h⟩

theorem answer_answered (s : State) (f : Frame) (h : status < 256) : Answered s (s.answer f status) f status := by
  obtain ⟨kind, index, station, length, head, byte, -⟩ := answerFrame_fields s f h
  exact hold_answered kind index station length head byte

end State

section Answering

variable {s t u : State} {f : Frame} {rest : List Frame} {status : Nat}

/-- An answer stays queued through what leaves the ANSWER FIFO and its count. -/
theorem Answered.kept {ns : List Note} (h : Answered s t f status) (notes : Notes ns t u)
    (box : Note.box .answer ∉ ns := by decide) (count : Note.counter .superseded ∉ ns := by decide) :
    Answered s u f status := by
  have frames : u.frames .answer = t.frames .answer := State.frames_same (notes _ box)
  have cell : u.cell .superseded = t.cell .superseded := notes _ count
  exact ⟨fun room => by rw [frames]; exact h.room room, fun full => by rw [frames, cell]; exact h.full full⟩

theorem Answered.chooseOffer (h : Answered s t f status) : Answered s t.chooseOffer f status :=
  h.kept t.chooseOffer_notes

/-- The answer to a REQUEST taken from the queue. -/
theorem State.taken_answered (s : State) (f : Frame) (h : status < 256) :
    Answered s (s.dequeue.answer f status) f status :=
  ⟨(s.dequeue.answer_answered f h).room, (s.dequeue.answer_answered f h).full⟩

theorem State.taken_answer_only (s : State) (f : Frame) (status : Nat) :
    Only (.queue :: postParts) s (s.dequeue.answer f status) := (s.dequeue.answer_only f status).taken

theorem State.taken_answer_notes (s : State) (f : Frame) (status : Nat) :
    Notes answerNotes s (s.dequeue.answer f status) := (s.dequeue.answer_notes f status).taken

/-- What follows an answer, seen from the event's start. -/
theorem Only.answered {ps : List Part} (only : Only ps (s.dequeue.answer f status) u) :
    Only (.queue :: postParts ++ ps) s u := (s.taken_answer_only f status).append only

theorem Notes.answered {ns : List Note} (notes : Notes ns (s.dequeue.answer f status) u) :
    Notes (answerNotes ++ ns) s u :=
  (s.taken_answer_notes f status).seq notes (List.subset_append_left _ _) (List.subset_append_right _ _)

/-- What leaves the receive queue after the head has left it. -/
theorem Delivered.queueKept {kind : Nat} {ps : List Part} (h : Delivered s kind f rest) (only : Only ps s.dequeue u)
    (queue : Part.queue ∉ ps := by decide) : u.chooseOffer.receive.queue = rest := by
  rw [State.queue_chooseOffer]
  exact (only .queue queue).trans h.dequeued

/-- An event that answers a REQUEST with one frame and does nothing else. -/
theorem Delivered.answeredAlone (h : Delivered s 8 f rest) (low : status < 256) :
    (s.dequeue.answer f status).chooseOffer.receive.queue = rest ∧
      Answered s (s.dequeue.answer f status).chooseOffer f status ∧
      Changes [.queue, .alert] answerNotes s (s.dequeue.answer f status).chooseOffer :=
  ⟨h.queueKept (s.dequeue.answer_only f status), (s.taken_answered f low).chooseOffer,
    Changes.ends (s.taken_answer_only f status) (s.taken_answer_notes f status)⟩

/-- A moving truck answers REFUSED_MOVING and carries nothing out (R177). -/
theorem Asked.refused {code : Nat} {r : Request} (h : Asked s code f rest) (asks : requestOf code (f.byte 1) = r)
    (refuses : r.refusedMoving = true) (moving : s.moving = true) :
    ∃ t, exec r.command s = .next t ∧ t.receive.queue = rest ∧ Answered s t f 3 ∧
      Changes [.queue, .alert] answerNotes s t := by
  refine ⟨_, h.served asks, ?_⟩
  rw [Request.act_moving refuses (s := s.dequeue) moving]
  exact h.delivered.answeredAlone (by decide)

end Answering

theorem State.moving_of {s : State} (tracking : s.tracker.state = .tracking) (speed : 10 ≤ s.tracker.speed) :
    s.moving = true := Bool.and_eq_true_iff.mpr ⟨decide_eq_true tracking, decide_eq_true speed⟩

/-- Settles O54: a moving truck's answer by `Asked.refused`, a REQUEST that is not taken by `Delivered.dropped`. -/
theorem requestsAreTurnedAway : Obligations.RequestsAreTurnedAway := by
  intro s f rest refused dropped asks
  refine ⟨fun tracking speed => ?_, fun delivered untaken => ?_⟩
  · have moving := State.moving_of tracking speed
    have reset {argument : Nat} (byte : f.byte 1 = argument) : requestOf 4 (f.byte 1) = requestOf 4 argument :=
      congrArg (requestOf 4) byte
    exact ⟨fun asked => asked.refused (r := .clearFilter) rfl rfl moving,
      fun asked scope => asked.refused (r := .resetLink) (reset scope) rfl moving,
      fun asked scope => asked.refused (r := .resetPlume) (reset scope) rfl moving,
      fun asked scope => asked.refused (r := .resetDemands) (reset scope) rfl moving,
      fun asked scope => asked.refused (r := .resetAll) (reset scope) rfl moving⟩
  · have untaken : s.takesRequest f = false := untaken.elim State.takesRequest_of_other
      fun ⟨conflict, other⟩ => State.takesRequest_of_conflict conflict other
    have known : countedUnknown f ≠ true := by
      rw [ne_eq, countedUnknown_iff, delivered.isKind]
      exact not_or.mpr ⟨nofun, not_or.mpr ⟨nofun, fun short => Nat.not_lt.mpr delivered.long short.2⟩⟩
    have unowned : s.silentlyDiscarded f = true :=
      State.silentlyDiscarded_iff.mpr (.inr (.inr ⟨delivered.isKind, untaken⟩))
    have drops (r : Request) (is : Frame.asks f = r) : dropped r.command :=
      ⟨_, delivered.unserved is untaken, delivered.dropped⟩
    refine ⟨fun index low => drops .query ((Frame.asks_code index).trans (requestOf_query low)),
      fun index group => drops .clearCounters ((Frame.asks_code index).trans (requestOf_clearCounters group)),
      fun index => drops .clearFlags (Frame.asks_code index), fun index => drops .clearFilter (Frame.asks_code index),
      fun ⟨index, byte⟩ => drops .resetLink (Frame.asks_of index byte),
      fun ⟨index, byte⟩ => drops .resetPlume (Frame.asks_of index byte),
      fun ⟨index, byte⟩ => drops .resetDemands (Frame.asks_of index byte),
      fun ⟨index, byte⟩ => drops .resetAll (Frame.asks_of index byte),
      fun index => drops .lampTest (Frame.asks_code index),
      fun high => drops .unknown ((Frame.asks_code rfl).trans (requestOf_unknown (.inl high))), ?_⟩
    refine ⟨_, State.exec_frameDiscarded delivered.queue delivered.station, ?_⟩
    rw [State.discarded_unowned known unowned]
    exact delivered.dropped

end Sys2Proof.Machine
end

section
/-! PROOFS. The clears, the lamp test and the unknown request (O52). -/

namespace Sys2Proof.Machine

open Sys2Proof

/-! ## Binary fields -/

/-- The bits of a number formed from levels are the levels. -/
theorem testBit_bitsValue (l : List Bool) (n : Nat) : (bitsValue l).testBit n = l.getD n false := by
  induction l generalizing n with
  | nil => exact Nat.zero_testBit n
  | cons b bs ih =>
    have bit : bitsValue (b :: bs) = Nat.bit b (bitsValue bs) := by
      rw [bitsValue, Nat.bit_val, Nat.add_comm]
      cases b <;> rfl
    rw [bit]
    cases n with
    | zero => exact Nat.testBit_bit_zero _ _
    | succ n => exact (Nat.testBit_bit_succ _ _ _).trans (ih n)

namespace State

variable {s t : State} {f : Frame} {rest : List Frame}

theorem unlessMoving_still (still : s.moving = false) (f : Frame) (act : State → Frame → State) :
    s.unlessMoving f act = act s f := if_neg (by rw [still]; decide)

/-! ## CLEAR_COUNTERS (R149) -/

/-- The argument of a CLEAR_COUNTERS names the counter. -/
def Names (argument : Nat) (c : Counter) : Prop :=
  argument = 255 ∨
    ((groupRange argument).1 ≤ c.index.val ∧ c.index.val < (groupRange argument).1 + (groupRange argument).2)

theorem inGroup_iff {argument : Nat} {c : Counter} : inGroup argument c.index.val = true ↔ Names argument c := by
  simp only [inGroup, Names, Bool.or_eq_true, decide_eq_true_iff]

theorem cell_clearGroup (s : State) (argument : Nat) (c : Counter) : (s.clearGroup argument).cell c =
    if inGroup argument c.index.val = true then zeroCell else s.cell c := tabulate_get _ c.index

theorem cell_clearGroup_named {argument : Nat} {c : Counter} (named : Names argument c) :
    (s.clearGroup argument).cell c = { count := 0, rollover := false } :=
  (s.cell_clearGroup argument c).trans (if_pos (inGroup_iff.mpr named))

theorem cell_clearGroup_other {argument : Nat} {c : Counter} (other : ¬ Names argument c) :
    (s.clearGroup argument).cell c = s.cell c :=
  (s.cell_clearGroup argument c).trans (if_neg (mt inGroup_iff.mp other))

theorem flags_chooseOffer (s : State) : s.chooseOffer.flags = s.flags := by
  unfold chooseOffer
  split <;> rfl

/-- An answer that is queued sets no flag. -/
theorem flags_answer_room (room : (s.frames .answer).length < 16) (f : Frame) (status : Nat) :
    (s.answer f status).flags = s.flags := by
  unfold answer
  rw [hold_of_room (supersedes_answer_room room)]
  rfl

/-! ## CLEAR_FLAGS (R161) -/

/-- The flag of a mask bit. -/
abbrev maskFlag (i : Fin 7) : Flag := latchedFlags.getD i.val .lampTest

/-- Some mask bit of the list names the flag. -/
def MaskNames (mask : Nat) (l : List (Fin 7)) (g : Flag) : Prop :=
  ∃ i ∈ l, mask.testBit i.val = true ∧ maskFlag i = g

/-- The flags a mask names, cleared one by one. -/
def clearMask (s : State) (mask : Nat) : State := (List.finRange 7).foldl (clearNamed mask) s

theorem flag_clearNamed_named {mask : Nat} {i : Fin 7} (names : mask.testBit i.val = true) :
    (s.clearNamed mask i).flag (maskFlag i) = false := by
  unfold clearNamed
  rw [if_pos names, clearFlag, flag_writeFlag, if_pos rfl]

theorem flag_clearNamed_other {mask : Nat} {i : Fin 7} {g : Flag} (other : mask.testBit i.val = true → maskFlag i ≠ g) :
    (s.clearNamed mask i).flag g = s.flag g := by
  unfold clearNamed
  split
  · next names => rw [clearFlag, flag_writeFlag, if_neg (other names)]
  · rfl

theorem flag_foldl_clearNamed_other {mask : Nat} {g : Flag} (l : List (Fin 7)) (s : State)
    (other : ¬ MaskNames mask l g) : (l.foldl (clearNamed mask) s).flag g = s.flag g := by
  induction l generalizing s with
  | nil => rfl
  | cons i l ih =>
    refine (ih _ fun ⟨j, later, named⟩ => other ⟨j, List.mem_cons_of_mem i later, named⟩).trans ?_
    exact flag_clearNamed_other fun names same => other ⟨i, List.mem_cons_self, names, same⟩

theorem flag_foldl_clearNamed_named {mask : Nat} {g : Flag} (l : List (Fin 7)) (s : State)
    (named : MaskNames mask l g) : (l.foldl (clearNamed mask) s).flag g = false := by
  induction l generalizing s with
  | nil => exact absurd named nofun
  | cons i l ih =>
    by_cases later : MaskNames mask l g
    · exact ih _ later
    · obtain ⟨j, among, names, same⟩ := named
      have first : j = i := (List.mem_cons.mp among).resolve_right fun after => later ⟨j, after, names, same⟩
      subst first same
      exact (flag_foldl_clearNamed_other l _ later).trans (flag_clearNamed_named names)

theorem clearMask_only (s : State) (mask : Nat) : Only [.flagBits, .alert] s (s.clearMask mask) :=
  Only.foldl (clearNamed_only mask) _ s

/-- The latched flags, as the notes that CLEAR_FLAGS can touch. -/
abbrev latchedNotes : List Note := latchedFlags.map .flag

theorem clearMask_notes (s : State) (mask : Nat) : Notes latchedNotes s (s.clearMask mask) :=
  Notes.foldl (fun t i => (t.clearNamed_notes mask i).mono (by revert i; decide)) _ s

/-! ## CLEAR_FILTER (R150) -/

theorem clearFilter_inlet (inlet : s.startup.role = .inlet) : s.clearFilter = (s.setFilter 0 0 0).evaluateFilter :=
  if_pos inlet

theorem clearFilter_elsewhere (other : s.startup.role ≠ .inlet) : s.clearFilter = s := if_neg other

/-! ## LAMP_TEST (R162) -/

/-- LAMP_TEST has class LAMP whatever the configuration holds (R159). -/
theorem flagClass_lampTest (c : Cfg) : flagClass c .lampTest = .lamp := if_pos rfl

theorem alert_lampTest (s : State) : (s.setFlag .lampTest).flags.alert = true := by
  refine List.any_eq_true.mpr ⟨.lampTest, by decide, ?_⟩
  rw [flagClass_lampTest]
  exact Bool.and_eq_true_iff.mpr ⟨(flag_writeFlag s .lampTest .lampTest true).trans (if_pos rfl), rfl⟩

/-- The HOUSE indication is on while LAMP_TEST is set (R160). -/
theorem summary_house (set : s.flag .lampTest = true) : s.summary.testBit 6 = true := by
  rw [State.summary, testBit_bitsValue]
  refine List.any_eq_true.mpr ⟨.lampTest, by decide, ?_⟩
  rw [set, flagClass_lampTest]
  rfl

theorem summary_chooseOffer (s : State) : s.chooseOffer.summary = s.summary := by
  obtain ⟨x, same, -⟩ := s.chooseOffer_eq_transmit
  rw [same]
  rfl

end State

/-- On a truck that is not moving a REQUEST that motion refuses is carried out (R177). -/
theorem Asked.servedStill {s : State} {code : Nat} {f : Frame} {rest : List Frame} {r : Request}
    {act : State → Frame → State} (h : Asked s code f rest) (asks : requestOf code (f.byte 1) = r)
    (form : r.act = fun t f => t.unlessMoving f act) (still : s.moving = false) :
    exec r.command s = .next (act s.dequeue f).chooseOffer := by
  rw [h.served asks, form]
  exact congrArg finish (State.unlessMoving_still (s := s.dequeue) still f act)

/-- Settles O52: the answer by `State.taken_answered`, and behind it what each request clears or sets. -/
theorem clearsAndLampTestAreCarriedOut : Obligations.ClearsAndLampTestAreCarriedOut := by
  intro s f rest argument named
  refine ⟨fun asked group => ?_, fun asked => ?_, fun asked still => ?_, fun asked => ?_, fun code asked other => ?_⟩
  · let u := s.dequeue.answer f statusAccepted
    let t := u.clearGroup argument
    have answer := s.taken_answer_notes f statusAccepted
    have frames (b : Box) : t.chooseOffer.frames b = u.frames b := State.frames_chooseOffer t b
    have only : Only (.queue :: postParts ++ [.counters]) s t := (u.clearGroup_only argument).answered
    refine ⟨_, asked.served (r := .clearCounters) (requestOf_clearCounters group), ?_, fun c names => ?_,
      fun c unnamed other => ?_, fun room => ⟨?_, ?_, fun c unnamed => ?_⟩, fun full => ?_, fun b other => ?_,
      fun g other => ?_, only.seq t.chooseOffer_only (by decide) (by decide)⟩
    · exact asked.delivered.queueKept ((s.dequeue.answer_only f _).append (u.clearGroup_only argument))
    · exact (State.cell_chooseOffer t c).trans (State.cell_clearGroup_named names)
    · exact (State.cell_chooseOffer t c).trans ((State.cell_clearGroup_other unnamed).trans
        (answer (.counter c) (by simpa using other)))
    · obtain ⟨a, queued, fields⟩ := (s.taken_answered f (status := 1) (by decide)).room room
      exact ⟨fun _ => ⟨a, (frames .answer).trans queued, fields⟩, fun full => absurd room (Nat.not_lt.mpr full)⟩
    · exact (State.flags_chooseOffer t).trans (s.dequeue.flags_answer_room room f _)
    · exact (State.cell_chooseOffer t c).trans ((State.cell_clearGroup_other unnamed).trans
        (s.dequeue.hold_answer_notes_of_room room _ (.counter c) (by simp)))
    · exact (frames .answer).trans (State.frames_hold_answer_full (s := s.dequeue) full _)
    · exact (frames b).trans (State.frames_same (answer (.box b) (by simpa using other)))
    · exact (State.flag_chooseOffer t g).trans (answer (.flag g) (by simpa using other))
  · let u := s.dequeue.answer f statusAccepted
    have cleared := u.clearMask_notes argument
    have answer := s.taken_answer_notes f statusAccepted
    refine ⟨_, asked.served (r := .clearFlags) rfl, ?_, ?_, fun i names => ?_, fun g other unnamed => ?_, ?_⟩
    · exact asked.delivered.queueKept ((s.dequeue.answer_only f _).append (u.clearMask_only argument))
    · exact ((s.taken_answered f (by decide)).kept cleared).chooseOffer
    · exact (State.flag_chooseOffer _ _).trans
        (State.flag_foldl_clearNamed_named _ u ⟨i, List.mem_finRange i, names, rfl⟩)
    · refine (State.flag_chooseOffer _ g).trans ((State.flag_foldl_clearNamed_other _ u ?_).trans
        (answer (.flag g) (by simpa using other)))
      exact fun ⟨i, _, names, same⟩ => unnamed i names same.symm
    · exact Changes.ends (u.clearMask_only argument).answered (cleared.answered.mono (by decide))
  · let u := s.dequeue.answer f statusAccepted
    have role : u.startup.role = s.startup.role := s.dequeue.answer_only f _ .role (by decide)
    have cfg : u.cfg = s.cfg := s.dequeue.answer_only f _ .cfg (by decide)
    refine ⟨_, asked.servedStill (r := .clearFilter) rfl rfl still, ?_, ?_, fun inlet => ?_, fun other => ?_, ?_⟩
    · exact asked.delivered.queueKept ((s.dequeue.answer_only f _).append u.clearFilter_only)
    · exact ((s.taken_answered f (by decide)).kept u.clearFilter_notes).chooseOffer
    · rw [State.clearFilter_inlet (role.trans inlet), State.accounting_chooseOffer, State.flag_chooseOffer, ← cfg]
      exact ⟨rfl, rfl, rfl, (State.flag_writeFlag _ _ _ _).trans (if_pos rfl)⟩
    · rw [State.clearFilter_elsewhere fun inlet => other (role.symm.trans inlet)]
      exact (asked.delivered.answeredAlone (by decide)).2.2
    · exact Changes.ends u.clearFilter_only.answered (u.clearFilter_notes.answered.mono (by decide))
  · let u := s.dequeue.answer f statusAccepted
    have lit := u.writeFlag_notes .lampTest true
    have set : (u.setFlag .lampTest).flag .lampTest = true := (State.flag_writeFlag _ _ _ _).trans (if_pos rfl)
    refine ⟨_, asked.served (r := .lampTest) rfl, ?_, ?_, ?_, ?_, ?_, ?_⟩
    · exact asked.delivered.queueKept ((s.dequeue.answer_only f _).append (u.writeFlag_only _ _))
    · exact ((s.taken_answered f (by decide)).kept lit).chooseOffer
    · exact (State.flag_chooseOffer _ _).trans set
    · exact (congrArg FlagUnit.alert (State.flags_chooseOffer _)).trans u.alert_lampTest
    · exact (congrArg (Nat.testBit · 6) (State.summary_chooseOffer _)).trans (State.summary_house set)
    · exact Changes.ends (u.writeFlag_only _ _).answered (lit.answered.mono (by decide))
  · exact ⟨_, asked.served (r := .unknown) (requestOf_unknown other), asked.delivered.answeredAlone (by decide)⟩

end Sys2Proof.Machine
end

section
/-! PROOFS. The reset scopes (O53, R173, R177). -/

namespace Sys2Proof.Machine

open Sys2Proof

namespace State

variable {s t : State} {f : Frame} {rest : List Frame}

/-! ## RESET_LINK (R173) -/

/-- The link after a RESET_LINK, with its two flags clear and f still as it was. -/
def linkReset (s : State) (f : Frame) : State := ((s.linkCleared f).clearFlag .linkPassive).clearFlag .linkWithdrawn

theorem resetLink_accepting (holds : s.transmit.boxes.holdsAccept = true) (f : Frame) : s.resetLink f = s.coldReset :=
  if_pos holds

theorem resetLink_free (holds : s.transmit.boxes.holdsAccept = false) (f : Frame) :
    s.resetLink f = (s.linkReset f).endPeerStretch := if_neg (by rw [holds]; decide)

theorem linkReset_only (s : State) (f : Frame) :
    Only (.offer :: .abandoned :: .queue :: .guard :: .interval :: .boxes :: scoreParts) s (s.linkReset f) :=
  ((s.linkCleared_only f).trans ((writeFlag_only _ _ _).mono (by decide))).trans
    ((writeFlag_only _ _ _).mono (by decide))

theorem resetLink_only (f : Frame) : Only (.queue :: .guard :: .boxes :: .offer :: .abandoned :: .counters ::
    .flagBits :: .score :: .linkState :: .withdrawal :: .stretch :: .interval :: .peers :: .demands :: .safeSet ::
      selectionParts) s (s.linkReset f).endPeerStretch :=
  (s.linkReset_only f).seq (endPeerStretch_only _) (by decide) (by decide)

/-- Without a fall of f the peers, the demand list and the safe-source set are left alone (R171). -/
theorem resetLink_flat_only (flat : s.stretch.peer.factor ≤ 1) (f : Frame) :
    Only (.stretch :: .offer :: .abandoned :: .queue :: .guard :: .interval :: .boxes :: scoreParts) s
      (s.linkReset f).endPeerStretch := by
  rw [endPeerStretch_flat (s := s.linkReset f) flat]
  exact ((s.linkReset_only f).mono (by decide)).trans ((setPeerStretch_only _ noStretch).mono (by decide))

/-- The frames a RESET_LINK removes are counted only when its own answer finds no room (log 35). -/
theorem linkReset_notes (s : State) (f : Frame) (n : Note) (boxes : ∀ b, n ≠ .box b)
    (other : n ∉ [.counter .superseded, .flag .counterRollover, .flag .linkPassive, .flag .linkWithdrawn]) :
    n.same s (s.linkReset f) := by
  let t := if s.transmit.boxes.supersedes .answer then s.count .superseded else s
  have counted : Notes [.counter .superseded, .flag .counterRollover] s t :=
    Notes.ite (s.count_notes _) (Notes.refl _ _)
  have cleared : n.same t (s.linkCleared f) := by
    cases n with
    | box b => exact absurd rfl (boxes b)
    | counter c | flag g => rfl
  have passive := (s.linkCleared f).writeFlag_notes .linkPassive false
  have withdrawn := ((s.linkCleared f).clearFlag .linkPassive).writeFlag_notes .linkWithdrawn false
  simp only [List.mem_cons, List.not_mem_nil, or_false, not_or] at other
  obtain ⟨cell, rollover, flags⟩ := other
  refine Note.same_trans (Note.same_trans (Note.same_trans (counted n ?_) cleared) (passive n ?_)) (withdrawn n ?_)
  · simp [cell, rollover]
  · simpa using flags.1
  · simpa using flags.2

theorem linkReset_superseded (s : State) (f : Frame) : (s.linkReset f).cell .superseded =
    if 16 ≤ (s.frames .answer).length then (s.cell .superseded).add 1 else s.cell .superseded := by
  let t := if s.transmit.boxes.supersedes .answer then s.count .superseded else s
  have cleared : (s.linkCleared f).cell .superseded = t.cell .superseded := rfl
  have passive := (s.linkCleared f).writeFlag_notes .linkPassive false (.counter .superseded) (by decide)
  have withdrawn := ((s.linkCleared f).clearFlag .linkPassive).writeFlag_notes .linkWithdrawn false
    (.counter .superseded) (by decide)
  refine withdrawn.trans (passive.trans (cleared.trans ?_))
  show (if s.transmit.boxes.supersedes .answer then s.count .superseded else s).cell .superseded = _
  rcases Nat.lt_or_ge (s.frames .answer).length 16 with room | full
  · rw [supersedes_answer_room room, if_neg (Nat.not_le.mpr room)]
    rfl
  · rw [supersedes_answer_full full, if_pos full, if_pos rfl, cell_count, if_pos rfl]

theorem frames_linkReset (s : State) (f : Frame) (b : Box) : (s.linkReset f).frames b =
    ((acceptedAlone s.transmit.boxes (freshHeld (answerFrame s f statusAccepted))).held b).map (·.frame) := rfl

theorem frames_linkReset_other {b : Box} (other : b ≠ .answer) (f : Frame) : (s.linkReset f).frames b = [] := by
  have none : (acceptedAlone s.transmit.boxes (freshHeld (answerFrame s f statusAccepted))).held b =
      emptyBoxes.held b := by
    cases b <;> first | rfl | exact absurd rfl other
  rw [frames_linkReset, none, Boxes.held_emptyBoxes]
  rfl

theorem frames_linkReset_room (room : (s.frames .answer).length < 16) (f : Frame) :
    (s.linkReset f).frames .answer = [answerFrame s f statusAccepted] :=
  congrArg (List.map Held.frame) (if_pos (s.frames_answer_length ▸ room))

theorem frames_linkReset_full (full : 16 ≤ (s.frames .answer).length) (f : Frame) :
    (s.linkReset f).frames .answer = [] :=
  congrArg (List.map Held.frame) (if_neg (Nat.not_lt.mpr (s.frames_answer_length ▸ full)))

theorem frames_endPeerStretch (s : State) (b : Box) : s.endPeerStretch.frames b = s.frames b :=
  frames_same (s.endPeerStretch_notes (.box b) (by simp))

/-- A note stands through the end of f when that end is no fall, or reaches no such note. -/
theorem endPeerStretch_note {n : Note} (h : s.stretch.peer.factor ≤ 1 ∨ n ∉ silentNotes) :
    n.same s s.endPeerStretch := by
  rcases h with flat | outside
  · rw [endPeerStretch_flat flat]
    cases n <;> rfl
  · exact s.endPeerStretch_notes n outside

theorem limitsFell_of_same {u : State} (h : LimitsFell u t) (peers : u.peers = s.peers)
    (factor : u.stretch.peer.factor = s.stretch.peer.factor) : LimitsFell s t := by
  obtain ⟨silenced, stay⟩ := h
  rw [peers, factor] at silenced stay
  exact ⟨silenced, stay⟩

/-! ## RESET_PLUME (R69, R88) -/

theorem abandonSighting_detector (s : State) :
    s.abandonSighting.detector = { s.detector with state := .clear, update := none, maxOpen := none } := rfl

/-- At an INLET the timeline is emptied and the PLUME entry withdrawn. -/
def plumeReset (s : State) : State :=
  if s.timeline.hold = .off then s.setRecords [] else (s.setRecords []).withdrawPlume

theorem plumeReset_only (s : State) : Only (.plumes :: .plumeHold :: listParts) s s.plumeReset :=
  Only.ite ((s.setRecords_only _).mono (by decide))
    ((s.setRecords_only _).seq (withdrawPlume_only _) (by decide) (by decide))

theorem plumeReset_notes (s : State) : Notes rampNotes s s.plumeReset :=
  Notes.ite ((s.setRecords_notes _).mono (by simp))
    ((s.setRecords_notes _).seq (withdrawPlume_rampNotes _) (by simp) (List.Subset.refl _))

theorem plumeReset_records (s : State) : s.plumeReset.timeline.records = [] := by
  unfold plumeReset
  split
  · rfl
  · exact ((s.setRecords []).withdrawPlume_only .plumes (by decide)).1

theorem plumeReset_hold (s : State) : s.plumeReset.timeline.hold = .off := by
  unfold plumeReset
  split
  · next off => exact off
  · exact withdrawPlume_hold _

theorem plumeReset_postHold (held : s.timeline.hold ≠ .off) : s.plumeReset.timeline.postHold = none := by
  rw [plumeReset, if_neg held]
  exact withdrawPlume_postHold _

theorem plumeReset_entries (inlet : s.startup.role = .inlet) (station : s.startup.station ≠ .loading)
    (held : s.timeline.hold ≠ .off) : s.plumeReset.demands.entries =
      s.demands.entries.filter (fun e => ¬ (e.station = s.startup.own ∧ e.source = 0)) := by
  rw [plumeReset, if_neg held]
  exact congrArg DemandList.entries ((withdrawPlume_handed (s := s.setRecords []) inlet).withdrawn inlet station rfl).1

/-- What RESET_PLUME leaves at an INLET (R88). -/
theorem plumeReset_leaves (inlet : s.startup.role = .inlet) (station : s.startup.station ≠ .loading) :
    s.plumeReset.timeline.records = [] ∧ s.plumeReset.timeline.hold = .off ∧
    s.plumeReset.timeline.lead = s.timeline.lead ∧ s.plumeReset.detector = s.detector ∧
    (s.timeline.hold ≠ .off → s.plumeReset.timeline.postHold = none ∧ s.plumeReset.demands.entries =
      s.demands.entries.filter (fun e => ¬ (e.station = s.startup.own ∧ e.source = 0))) :=
  ⟨s.plumeReset_records, s.plumeReset_hold, s.plumeReset_only .lead (by decide),
    s.plumeReset_only .detector (by decide),
    fun held => ⟨plumeReset_postHold held, plumeReset_entries inlet station held⟩⟩

theorem resetTimelineRecords_inlet (inlet : s.startup.role = .inlet) (station : s.startup.station ≠ .loading) :
    s.resetTimelineRecords.resetDetector = s.plumeReset := by
  have records : s.resetTimelineRecords = s.plumeReset :=
    if_neg (by rw [timelineWorks_iff.mpr ⟨inlet, station⟩]; decide)
  have role : s.plumeReset.startup.role = .inlet := (s.plumeReset_only .role (by decide)).trans inlet
  rw [records]
  exact if_neg (by rw [role]; decide)

theorem resetTimelineRecords_elsewhere (other : s.startup.role ≠ .inlet) :
    s.resetTimelineRecords.resetDetector = s.resetDetector :=
  congrArg resetDetector (if_pos (Bool.eq_false_iff.mpr fun works => other (timelineWorks_iff.mp works).1))

theorem resetDetector_forward (forward : s.startup.role = .forward) : s.resetDetector = s.abandonSighting :=
  if_pos forward

theorem resetDetector_elsewhere (other : s.startup.role ≠ .forward) : s.resetDetector = s := if_neg other

/-- What a RESET_PLUME leaves alone: the lead among it (R88). -/
theorem plumeScope_kept (station : s.startup.station ≠ .loading) :
    Only (.detector :: .plumes :: .plumeHold :: listParts) s s.resetTimelineRecords.resetDetector ∧
      Notes rampNotes s s.resetTimelineRecords.resetDetector := by
  by_cases inlet : s.startup.role = .inlet
  · rw [resetTimelineRecords_inlet inlet station]
    exact ⟨s.plumeReset_only.mono (by decide), s.plumeReset_notes⟩
  · rw [resetTimelineRecords_elsewhere inlet]
    exact ⟨s.resetDetector_only.mono (by decide), s.resetDetector_notes.mono (by simp)⟩

/-! ## RESET_DEMANDS (R111) -/

end State

section Demands

theorem DemandList.holds_eq_map (l : DemandList) (n : Fin 8) (source : Fin 16) :
    l.holds n source = (l.entries.map fun e => (e.station, e.source)).any fun k => decide (k.1 = n ∧ k.2 = source) := by
  rw [List.any_map]
  rfl

theorem placeEntry_perm (e : DemandEntry) (l : List DemandEntry) : (placeEntry e l).Perm (e :: l) := by
  obtain ⟨before, after, placed, rfl, -, -⟩ := placeEntry_splits e l
  rw [placed]
  exact List.perm_middle

theorem DemandList.renumbered_map {α : Type} {p : DemandEntry → α} (hp : ∀ x k, p { x with stamp := k } = p x)
    (l : DemandList) : l.renumbered.entries.map p = l.entries.map p := by
  by_cases last : l.nextStamp = 65535
  · rw [renumbered_last last]
    exact renumberFrom_map hp 0 l.entries
  · rw [renumbered_before last]

/-- Whatever does not read the stamps sees an insertion as one entry more. -/
theorem DemandList.insert_map_perm {α : Type} {p : DemandEntry → α} (hp : ∀ x k, p { x with stamp := k } = p x)
    (l : DemandList) (e : DemandEntry) : ((l.insert e).entries.map p).Perm (p e :: l.entries.map p) := by
  have placed := (placeEntry_perm { e with stamp := l.renumbered.nextStamp } l.renumbered.entries).map p
  rwa [List.map_cons, hp, l.renumbered_map hp] at placed

theorem DemandList.holds_insert (l : DemandList) (e : DemandEntry) (n : Fin 8) (source : Fin 16) :
    (l.insert e).holds n source = true ↔ (e.station = n ∧ e.source = source) ∨ l.holds n source = true := by
  have keys := (l.insert_map_perm (p := fun e => (e.station, e.source)) (fun _ _ => rfl) e)
  rw [holds_eq_map, holds_eq_map, keys.any_eq, List.any_cons, Bool.or_eq_true, decide_eq_true_iff]

theorem DemandList.insert_all {p : DemandEntry → Prop} (hp : ∀ x k, p { x with stamp := k } ↔ p x) {l : DemandList}
    {e : DemandEntry} (new : p e) (old : ∀ x ∈ l.entries, p x) : ∀ x ∈ (l.insert e).entries, p x := by
  have same := l.insert_map_perm (p := p) (fun x k => propext (hp x k)) e
  intro x member
  rcases List.mem_cons.mp (same.mem_iff.mp (List.mem_map_of_mem member)) with is | among
  · exact is ▸ new
  · obtain ⟨y, held, is⟩ := List.mem_map.mp among
    exact is ▸ old y held

/-- Local entries alone have been raised from `s` on: of these sources, and no more than `n`. -/
structure LocalsAlone (s : State) (sources : Fin 16 → Prop) (n : Nat) (t : State) : Prop where
  only : Only State.entryParts s t
  locals : ∀ e ∈ t.demands.entries, e.station = s.startup.own ∧ e.hold = none
  keys : ∀ source, t.demands.holds s.startup.own source = true ↔ sources source
  length : t.demands.entries.length ≤ n

namespace LocalsAlone

variable {s t u : State} {sources : Fin 16 → Prop} {n : Nat}

theorem congr {others : Fin 16 → Prop} (h : LocalsAlone s sources n t) (same : ∀ x, sources x ↔ others x) :
    LocalsAlone s others n t := ⟨h.only, h.locals, fun x => (h.keys x).trans (same x), h.length⟩

/-- A local entry on a list of local entries with room. -/
theorem insertLocal (h : LocalsAlone s sources n t) (works : s.listWorks = true) (room : n < 16) (x : Fin 16)
    (r : DemandRegime) (level : Nat) :
    LocalsAlone s (fun y => sources y ∨ y = x) (n + 1) (t.insertLocal x r level) := by
  obtain ⟨only, locals, keys, length⟩ := h
  obtain ⟨inlet, station⟩ := s.listWorks_iff.mp works
  obtain ⟨own, -⟩ : Part.straps.same s t := only .straps (by decide)
  have works : t.listWorks = true := t.listWorks_iff.mpr ⟨(only .role (by decide)).trans inlet,
    fun loading => station ((only .station (by decide)).symm.trans loading)⟩
  have raised := t.insertLocal_raised x r level works
  have inserts := only.trans (t.insertLocal_only x r level)
  cases held : t.demands.holds t.startup.own x with
  | true =>
    have again := raised.again (by simpa [DemandList.holds, DemandEntry.hasKey] using held)
    rw [own] at held
    refine ⟨inserts, again ▸ locals, fun y => ?_, again ▸ length.trans (Nat.le_succ n)⟩
    rw [again, keys]
    exact ⟨.inl, fun k => k.elim id fun is => is ▸ (keys x).mp held⟩
  | false =>
    obtain ⟨inserted, -⟩ := raised.room (DemandList.holds_eq_false.mp held) (length.trans_lt room)
    rw [own] at inserted
    refine ⟨inserts, ?_, fun y => ?_, ?_⟩
    · rw [inserted]
      exact DemandList.insert_all (p := fun e => e.station = s.startup.own ∧ e.hold = none) (fun _ _ => Iff.rfl)
        ⟨rfl, rfl⟩ locals
    · rw [inserted, DemandList.holds_insert, keys, or_comm]
      simp [eq_comm]
    · rw [inserted, Act.length_insert]
      exact Nat.succ_le_succ length

/-- A local entry raised only under a condition. -/
theorem insertIf (h : LocalsAlone s sources n t) (works : s.listWorks = true) (room : n < 16) {c : Prop} {x : Fin 16}
    {r : DemandRegime} {level : Nat} (holds : c → u = t.insertLocal x r level) (fails : ¬ c → u = t) :
    LocalsAlone s (fun y => sources y ∨ (y = x ∧ c)) (n + 1) u := by
  by_cases k : c
  · rw [holds k]
    exact (h.insertLocal works room x r level).congr fun y => by simp [k]
  · rw [fails k]
    exact ⟨h.only, h.locals, fun y => by simp [k, h.keys], h.length.trans (Nat.le_succ n)⟩

/-- The rule demands among these rules. -/
theorem insertRules (works : s.listWorks = true) (l : List (Fin 8)) (room : n + l.length ≤ 16)
    (h : LocalsAlone s sources n t) : LocalsAlone s (fun y => sources y ∨ ∃ m ∈ l, y = ruleSource m ∧
      s.rules[m].firing = true ∧ s.cfg.rules[m].action.isDemand = true) (n + l.length)
        (l.foldl State.insertRule t) := by
  induction l generalizing t sources n with
  | nil => exact h.congr fun y => by simp
  | cons m l ih =>
    have rules : t.rules = s.rules := h.only .rules (by decide)
    have cfg : t.cfg = s.cfg := h.only .cfg (by decide)
    have first : LocalsAlone s (fun y => sources y ∨ (y = ruleSource m ∧ s.rules[m].firing = true ∧
        s.cfg.rules[m].action.isDemand = true)) (n + 1) (t.insertRule m) := by
      unfold State.insertRule
      rw [rules, cfg]
      cases action : s.cfg.rules[m].action with
      | demand r level =>
        exact h.insertIf (r := r) (level := level) works (by rw [List.length_cons] at room; omega)
          (fun k => if_pos k.1) (fun k => if_neg fun firing => k ⟨firing, rfl⟩)
      | none | safe =>
        refine LocalsAlone.congr ⟨h.only, h.locals, h.keys, h.length.trans (Nat.le_succ n)⟩ fun y => ?_
        simp [RuleAction.isDemand]
    have others := ih (by rw [List.length_cons] at room; omega) first
    rw [List.foldl_cons, List.length_cons, Nat.add_comm l.length 1, ← Nat.add_assoc]
    exact others.congr fun y => by simp only [List.mem_cons, exists_eq_or_imp, or_assoc]

end LocalsAlone

/-- The local entries raised on an emptied list (R111): the conditions of R107 that hold. -/
theorem insertLocals_alone {s : State} (works : s.listWorks = true) (empty : s.demands = resetDemandList) :
    LocalsAlone s (fun y => (y = 0 ∧ s.timeline.hold ≠ .off) ∨ (y = 2 ∧ s.recircSwitch = true) ∨
      (y = 3 ∧ s.flushSwitch = true) ∨ ∃ m : Fin 8, y = ruleSource m ∧ s.rules[m].firing = true ∧
        s.cfg.rules[m].action.isDemand = true) 11 s.insertLocals := by
  have start : LocalsAlone s (fun _ => False) 0 s :=
    { only := Only.refl _ s, locals := by rw [empty]; nofun
      keys := by rw [empty]; exact fun _ => iff_of_false Bool.false_ne_true id
      length := by rw [empty]; rfl }
  let a := if s.timeline.hold = .off then s else s.insertLocal 0 .recirc s.cfg.timeline.plumeLevel
  let b := if s.recircSwitch then a.insertLocal 2 .recirc s.cfg.driverLevel else a
  let c := if s.flushSwitch then b.insertLocal 3 .flush s.cfg.driverLevel else b
  have plume := start.insertIf (u := a) works (by decide) (c := s.timeline.hold ≠ .off)
    (fun held => if_neg held) (fun off => if_pos (not_not.mp off))
  have recirc := plume.insertIf (u := b) works (by decide) (c := s.recircSwitch = true)
    (fun on => if_pos on) (fun off => if_neg off)
  have flush := recirc.insertIf (u := c) works (by decide) (c := s.flushSwitch = true)
    (fun on => if_pos on) (fun off => if_neg off)
  refine (flush.insertRules works (List.finRange 8) (by decide)).congr fun y => ?_
  simp only [false_or, or_assoc, List.mem_finRange, true_and]

theorem ruleSource_inj {m n : Fin 8} : ruleSource n = ruleSource m ↔ m = n := by
  simp only [ruleSource, Fin.ext_iff, Nat.add_left_cancel_iff, eq_comm]

end Demands

namespace State

variable {s t : State} {f : Frame} {rest : List Frame}

theorem dropRemote_safe (s : State) : s.dropRemote.safe = s.safe.localOnly := by
  unfold dropRemote
  dsimp only
  split <;> rfl

/-- SAFE_ACTIVE clears with the last member (R102). -/
theorem dropRemote_flag (before : s.safe.nonempty = true) (after : s.safe.localOnly.nonempty = false) :
    s.dropRemote.flag .safeActive = false := by
  unfold dropRemote
  rw [before, after]
  exact flag_writeFlag_same _ _ _

/-- The list and the set as RESET_DEMANDS leaves them at an INLET, before its selection. -/
def demandsReset (s : State) : State := ({ s with demands := resetDemandList }).insertLocals.dropRemote

theorem resetDemands_inlet (works : s.listWorks = true) : s.resetDemands = s.demandsReset.rederive :=
  if_neg (by rw [works]; decide)

theorem resetDemands_elsewhere (other : s.startup.role ≠ .inlet) : s.resetDemands = s :=
  if_pos (Bool.eq_false_iff.mpr fun works => other (s.listWorks_iff.mp works).1)

theorem demandsReset_only (s : State) : Only intakeParts s s.demandsReset :=
  (((setDemands_only s _).mono (by decide)).trans ((insertLocals_only _).mono (by decide))).trans
    ((dropRemote_only _).mono (by decide))

theorem demandsReset_list (s : State) :
    s.demandsReset.demands = ({ s with demands := resetDemandList } : State).insertLocals.demands :=
  dropRemote_only _ .demands (by decide)

theorem demandsReset_safe (s : State) : s.demandsReset.safe = s.safe.localOnly := by
  have kept : ({ s with demands := resetDemandList } : State).insertLocals.safe = s.safe :=
    insertLocals_only _ .safeSet (by decide)
  rw [demandsReset, dropRemote_safe, kept]

theorem demandsReset_flag (before : s.safe.nonempty = true) (after : s.safe.localOnly.nonempty = false) :
    s.demandsReset.flag .safeActive = false := by
  have kept : ({ s with demands := resetDemandList } : State).insertLocals.safe = s.safe :=
    insertLocals_only _ .safeSet (by decide)
  rw [← kept] at before after
  exact dropRemote_flag before after

/-- The own entries after a RESET_DEMANDS are those of the conditions that hold (R111). -/
theorem demandsReset_holds (works : s.listWorks = true) :
    (∀ e ∈ s.demandsReset.demands.entries, e.station = s.startup.own ∧ e.hold = none) ∧
    (s.demandsReset.demands.holds s.startup.own 0 = true ↔ s.timeline.hold ≠ .off) ∧
    (s.demandsReset.demands.holds s.startup.own 2 = true ↔ s.recircSwitch = true) ∧
    (s.demandsReset.demands.holds s.startup.own 3 = true ↔ s.flushSwitch = true) ∧
    ∀ n : Fin 8, s.demandsReset.demands.holds s.startup.own (ruleSource n) = true ↔
      s.rules[n].firing = true ∧ s.cfg.rules[n].action.isDemand = true := by
  obtain ⟨-, locals, keys, -⟩ := insertLocals_alone (s := { s with demands := resetDemandList }) works rfl
  have high (n : Fin 8) (k : Fin 16) (low : k.val < 8) : ruleSource n ≠ k :=
    fun same => absurd (congrArg Fin.val same) (Nat.ne_of_gt (low.trans_le (Nat.le_add_right 8 n.val)))
  rw [demandsReset_list]
  refine ⟨locals, (keys 0).trans ?_, (keys 2).trans ?_, (keys 3).trans ?_, fun n => (keys _).trans ?_⟩
  · simp [(high _ 0 (by decide)).symm]
  · simp [(high _ 2 (by decide)).symm]
    rfl
  · simp [(high _ 3 (by decide)).symm]
    rfl
  · simp [high n 0 (by decide), high n 2 (by decide), high n 3 (by decide), ruleSource_inj]

/-- What an answer leaves of the state a RESET finds. -/
theorem switches_taken_answer (s : State) (f : Frame) (status : Nat) :
    (s.dequeue.answer f status).recircSwitch = s.recircSwitch ∧
      (s.dequeue.answer f status).flushSwitch = s.flushSwitch := by
  have only := s.taken_answer_only f status
  have level := functionLevel_congr (only .inputs (by decide)) (only .cfg (by decide)) (only .role (by decide))
    (only .station (by decide))
  exact ⟨level _, level _⟩

/-! ## RESET_ALL (R177, R185) -/

/-- The mark of a RESET ALL that waits for the outcome of its frame. -/
def markReset (s : State) : State := { s with startup := { s.startup with pendingReset := true } }

theorem markReset_only (s : State) : Only [.pendingReset] s s.markReset := by
  intro p hp
  cases p <;> first | rfl | exact ⟨rfl, rfl⟩ | exact ⟨rfl, rfl, rfl⟩ | exact absurd (by decide) hp

theorem markReset_notes (s : State) : Notes [] s s.markReset := Notes.plain rfl rfl rfl

theorem acceptResetAll_full (full : 16 ≤ (s.frames .answer).length) (f : Frame) : s.acceptResetAll f = s.coldReset :=
  if_pos (s.frames_answer_length ▸ full)

/-- With room the ACCEPTED frame is held, and the mark stands (log 35). -/
theorem acceptResetAll_room (room : (s.frames .answer).length < 16) (f : Frame) :
    ∃ h : Held, h.frame = answerFrame s f statusAccepted ∧ s.acceptResetAll f = s.markReset.hold .answer h := by
  have room : ¬ answerCapacity ≤ s.transmit.boxes.answer.length := Nat.not_le.mpr (s.frames_answer_length ▸ room)
  cases marked : s.startup.pendingReset with
  | false =>
    refine ⟨{ frame := answerFrame s f statusAccepted, offered := false, acceptsReset := true }, rfl, ?_⟩
    rw [acceptResetAll, if_neg room, marked, if_neg (by decide)]
    rfl
  | true =>
    refine ⟨freshHeld (answerFrame s f statusAccepted), rfl, ?_⟩
    have same : s.markReset = s := by rw [markReset, ← marked]
    rw [acceptResetAll, if_neg room, marked, if_pos rfl, same]

/-- A RESET ALL for this station is taken in CONFLICT too (R177). -/
theorem takesRequest_of_resetAll (target : f.byte 0 = s.startup.own.val) (asks : Frame.asks f = .resetAll) :
    s.takesRequest f = true := by
  unfold takesRequest
  rw [target, asks]
  simp

/-- What RESET_DEMANDS leaves at an INLET (R102, R111). -/
theorem resetDemands_leaves (works : s.listWorks = true) : s.resetDemands.demands = s.demandsReset.demands ∧
    s.resetDemands.safe = s.safe.localOnly ∧
    (s.safe.nonempty = true → s.resetDemands.safe.nonempty = false → s.resetDemands.flag .safeActive = false) ∧
    RegimeSelected s.resetDemands ∧ TargetsHanded s.resetDemands := by
  obtain ⟨inlet, station⟩ := s.listWorks_iff.mp works
  have only := s.demandsReset_only
  have works' : s.demandsReset.listWorks = true := (listWorks_iff _).mpr
    ⟨(only .role (by decide)).trans inlet, fun loading => station ((only .station (by decide)).symm.trans loading)⟩
  have kept := s.demandsReset.rederive_only
  have safe : s.demandsReset.rederive.safe = s.safe.localOnly :=
    (kept .safeSet (by decide)).trans s.demandsReset_safe
  rw [resetDemands_inlet works]
  refine ⟨kept .demands (by decide), safe, fun before after => ?_, s.demandsReset.rederive_selected works'⟩
  rw [safe] at after
  exact (s.demandsReset.rederive_notes (.flag .safeActive) (by decide)).trans (demandsReset_flag before after)

/-- A set without its SAFE·n members is the set with these gone (R111). -/
theorem localOnly_remote (q : SafeSet) (n : Fin 8) : q.localOnly.remote[n] = none := tabulate_get _ n

end State

theorem Delivered.resetAllServed {s : State} {f : Frame} {rest : List Frame} (h : Delivered s 8 f rest)
    (index : f.index.val = 4) (target : f.byte 0 = s.startup.own.val) (argument : f.byte 1 = 3)
    (still : s.moving = false) : exec .resetAll s = .next (s.dequeue.acceptResetAll f).chooseOffer := by
  have asks : Frame.asks f = .resetAll := Frame.asks_of index argument
  refine (h.served asks (State.takesRequest_of_resetAll target asks)).trans ?_
  exact congrArg finish (State.unlessMoving_still (s := s.dequeue) still f State.acceptResetAll)

/-- Settles O53: each scope by the equations above, with the answer that goes before it. -/
theorem resetScopesAreCarriedOut : Obligations.ResetScopesAreCarriedOut := by
  intro s f rest still
  have scope {n : Nat} (byte : f.byte 1 = n) : requestOf 4 (f.byte 1) = requestOf 4 n := congrArg (requestOf 4) byte
  refine ⟨fun asked link => ⟨fun holds => ?_, fun free => ?_⟩, fun asked plume => ?_, fun asked demands => ?_,
    fun delivered index own all => ⟨fun room => ?_, fun full => ?_⟩⟩
  · refine ⟨s.dequeue.coldReset, (asked.servedStill (r := .resetLink) (scope link) rfl still).trans ?_,
      State.resetState_of_only s.dequeue_only⟩
    rw [State.resetLink_accepting (s := s.dequeue) holds, State.coldReset_chooseOffer]
  · let u := s.dequeue.linkReset f
    let t := u.endPeerStretch
    have run : exec .resetLink s = .next t.chooseOffer := by
      refine (asked.servedStill (r := .resetLink) (scope link) rfl still).trans ?_
      rw [State.resetLink_free (s := s.dequeue) free]
    have kept : Only (.stretch :: .boxes :: .offer :: peerParts) u t.chooseOffer :=
      u.endPeerStretch_only.seq t.chooseOffer_only (by decide) (by decide)
    have frames (b : Box) : t.chooseOffer.frames b = u.frames b :=
      (State.frames_chooseOffer t b).trans (u.frames_endPeerStretch b)
    have note {n : Note} (free : s.stretch.peer.factor ≤ 1 ∨ n ∉ silentNotes) : n.same u t.chooseOffer :=
      Note.same_trans (State.endPeerStretch_note (s := u) free) (t.chooseOffer_notes n (by simp))
    have other (n : Note) := s.dequeue.linkReset_notes f n
    have flag (g : Flag) (h : Note.flag g ∉ silentNotes) : t.chooseOffer.flag g = u.flag g :=
      note (n := .flag g) (.inr h)
    refine ⟨_, run, kept .queue (by decide), kept .guard (by decide), kept .score (by decide),
      kept .linkState (by decide), kept .withdrawal (by decide), (flag _ (by decide)).trans ?_,
      (flag _ (by decide)).trans ?_, ?_, fun b box => (frames b).trans (State.frames_linkReset_other box f),
      fun room => ?_, fun full => (frames _).trans (State.frames_linkReset_full (s := s.dequeue) full f), ?_, ?_,
      fun flat => ?_, fun c is free => ?_, fun g passive withdrawn rollover free => ?_, ?_⟩
    · exact (State.flag_writeFlag_ne _ _ (by decide)).trans (State.flag_writeFlag_same _ _ _)
    · exact State.flag_writeFlag_same _ _ _
    · rw [State.stretch_chooseOffer, State.stretch_endPeerStretch]
      rfl
    · obtain ⟨kind, -, -, -, head, byte, -⟩ := answerFrame_fields s.dequeue f (status := statusAccepted) (by decide)
      refine ⟨_, (frames _).trans (State.frames_linkReset_room (s := s.dequeue) room f), kind, byte, ?_⟩
      rw [head, asked.code]
    · exact (note (n := .counter .superseded) (.inr (by decide))).trans (s.dequeue.linkReset_superseded f)
    · have fell := State.limitsFell_chooseOffer u.limitsFell_endPeerStretch
      exact State.limitsFell_of_same fell (s.dequeue.linkReset_only f .peers (by decide)) rfl
    · have only := (State.resetLink_flat_only (s := s.dequeue) flat f).taken.append (State.chooseOffer_only _)
      exact ⟨only .peers (by decide), only .demands (by decide), only .safeSet (by decide), only .regime (by decide),
        only .mix (by decide), State.ramps_ext (only .damper (by decide)) (only .blower (by decide))
          (only .settle (by decide))⟩
    · have outside : s.stretch.peer.factor ≤ 1 ∨ Note.counter c ∉ silentNotes := free.imp_right fun h => by simp [h]
      exact (note (n := .counter c) outside).trans (other (.counter c) nofun (by simpa using is))
    · have outside : s.stretch.peer.factor ≤ 1 ∨ Note.flag g ∉ silentNotes :=
        free.imp_right fun h => by simp [h, rollover]
      exact (note (n := .flag g) outside).trans (other (.flag g) nofun (by simp [passive, withdrawn, rollover]))
    · exact (State.resetLink_only (s := s.dequeue) f).taken.seq t.chooseOffer_only (by simp) (by simp)
  · let u := s.dequeue.answer f statusAccepted
    have run := asked.servedStill (r := .resetPlume) (scope plume) rfl still
    have answered := s.taken_answered f (status := 1) (by decide)
    have before := s.taken_answer_only f statusAccepted
    have role : u.startup.role = s.startup.role := before .role (by decide)
    have station : u.startup.station ≠ .loading := (before .station (by decide)).trans_ne asked.delivered.station
    obtain ⟨only, notes⟩ := State.plumeScope_kept (s := u) station
    refine ⟨_, run, asked.delivered.queueKept ((s.dequeue.answer_only f _).append only),
      (answered.kept notes).chooseOffer, fun inlet => ?_, fun forward => ?_, fun cabin => ?_,
      Changes.ends only.answered notes.answered⟩
    · obtain ⟨hold, -⟩ : Part.plumeHold.same s u := before .plumeHold (by decide)
      have demands : u.demands = s.demands := before .demands (by decide)
      obtain ⟨own, -⟩ : Part.straps.same s u := before .straps (by decide)
      obtain ⟨records, off, lead, detector, withdrawn⟩ := State.plumeReset_leaves (role.trans inlet) station
      rw [hold, demands, own] at withdrawn
      rw [State.resetTimelineRecords_inlet (s := u) (role.trans inlet) station, State.timeline_chooseOffer,
        State.detector_chooseOffer, show u.plumeReset.chooseOffer.demands = _ from
          State.chooseOffer_only _ .demands (by decide)]
      exact ⟨records, off, lead.trans (before .lead (by decide)), detector.trans (before .detector (by decide)),
        withdrawn⟩
    · rw [State.resetTimelineRecords_elsewhere (s := u) (by rw [role, forward]; decide),
        State.resetDetector_forward (s := u) (role.trans forward)]
      have detector : u.detector = s.detector := before .detector (by decide)
      refine ⟨?_, Changes.ends (u.setDetector_only _).answered (u.setDetector_notes _).answered⟩
      rw [State.detector_chooseOffer, State.abandonSighting_detector, detector]
    · rw [State.resetTimelineRecords_elsewhere (s := u) (by rw [role, cabin]; decide),
        State.resetDetector_elsewhere (s := u) (by rw [role, cabin]; decide)]
      exact (asked.delivered.answeredAlone (by decide)).2.2
  · let u := s.dequeue.answer f statusAccepted
    have run := asked.servedStill (r := .resetDemands) (scope demands) rfl still
    have answered := s.taken_answered f (status := 1) (by decide)
    have before := s.taken_answer_only f statusAccepted
    have role : u.startup.role = s.startup.role := before .role (by decide)
    refine ⟨_, run, asked.delivered.queueKept ((s.dequeue.answer_only f _).append u.resetDemands_only),
      (answered.kept u.resetDemands_notes (by simp) (by simp)).chooseOffer, fun other => ?_, fun inlet => ?_, ?_⟩
    · rw [State.resetDemands_elsewhere (s := u) fun inlet => other (role.symm.trans inlet)]
      exact (asked.delivered.answeredAlone (by decide)).2.2
    · have works : u.listWorks = true := u.listWorks_iff.mpr ⟨role.trans inlet,
        fun loading => asked.delivered.station ((before .station (by decide)).symm.trans loading)⟩
      obtain ⟨list, set, cleared, selected, handed⟩ := State.resetDemands_leaves works
      obtain ⟨locals, plume, recirc, flush, rules⟩ := State.demandsReset_holds works
      obtain ⟨own, -⟩ : Part.straps.same s u := before .straps (by decide)
      obtain ⟨hold, -⟩ : Part.plumeHold.same s u := before .plumeHold (by decide)
      obtain ⟨recircSwitch, flushSwitch⟩ := s.switches_taken_answer f statusAccepted
      have listed : u.resetDemands.chooseOffer.demands = _ := (State.chooseOffer_only _ .demands (by decide)).trans list
      have kept : u.resetDemands.chooseOffer.safe = _ := (State.chooseOffer_only _ .safeSet (by decide)).trans set
      rw [own] at locals plume recirc flush rules
      rw [listed, kept, State.flag_chooseOffer]
      refine ⟨locals, ?_, ?_, ?_, fun n => ?_, ?_, fun n => ?_, ?_, selected.chooseOffer, handed.chooseOffer⟩
      · rw [plume, hold]
      · rw [recirc, recircSwitch]
      · rw [flush, flushSwitch]
      · rw [rules, show u.rules = s.rules from before .rules (by decide),
          show u.cfg = s.cfg from before .cfg (by decide)]
      · rw [show u.safe = s.safe from before .safeSet (by decide)]
        rfl
      · exact State.localOnly_remote u.safe n
      · intro some none
        rw [← set] at none
        exact cleared ((congrArg SafeSet.nonempty (before .safeSet (by decide))).trans some) none
    · exact Changes.ends u.resetDemands_only.answered (u.resetDemands_notes.answered)
  · have run := delivered.resetAllServed index own all still
    obtain ⟨h, accept, form⟩ := State.acceptResetAll_room (s := s.dequeue) room f
    let u := s.dequeue.markReset
    have room' : (u.frames .answer).length < 16 := room
    have only : Only [.queue, .pendingReset] s u := s.dequeue_only.append s.dequeue.markReset_only
    have notes : Notes [] s u := s.dequeue_notes.trans s.dequeue.markReset_notes
    have loses := State.supersedes_answer_room room'
    obtain ⟨kind, number, station, length, head, byte, -⟩ := answerFrame_fields s.dequeue f (status := 1) (by decide)
    have answered : Answered u (u.hold .answer h) f 1 := State.hold_answered (accept ▸ kind) (accept ▸ number)
      (accept ▸ station) (accept ▸ length) (accept ▸ head) (accept ▸ byte)
    rw [form] at run
    have mark : Part.pendingReset.same u (u.hold .answer h).chooseOffer :=
      ((u.hold_only .answer h).append (State.chooseOffer_only _)) .pendingReset (by decide)
    refine ⟨_, run, ?_, mark, Answered.chooseOffer ⟨answered.room, answered.full⟩, ?_⟩
    · exact delivered.queueKept (s.dequeue.markReset_only.append (u.hold_only .answer h))
    · rw [State.hold_of_room loses]
      exact Changes.ends (only.append (u.putBox_only .answer h))
        (notes.seq (u.putBox_notes .answer h) (by simp) (by simp))
  · refine ⟨s.dequeue.coldReset, (delivered.resetAllServed index own all still).trans ?_,
      State.resetState_of_only s.dequeue_only⟩
    rw [State.acceptResetAll_full (s := s.dequeue) full, State.coldReset_chooseOffer]

end Sys2Proof.Machine
end

section
/-! PROOFS. The answer to a QUERY (O51, R178, R179). -/

namespace Sys2Proof.Machine

open Sys2Proof

/-! ## Fields and their packing (R179) -/

/-- A field's value fits its width. -/
def Fits (x : Field) : Prop := x.2 < 2 ^ x.1

@[simp] theorem fld_fits (width v : Nat) : Fits (fld width v) :=
  (Nat.min_le_right _ _).trans_lt (Nat.sub_one_lt (Nat.two_pow_pos width).ne')

@[simp] theorem fldAbsent_fits (width : Nat) (o : Option Nat) : Fits (fldAbsent width o) := by
  have some := Nat.two_pow_pos width
  cases o with
  | none => exact Nat.sub_one_lt some.ne'
  | some v => exact (Nat.min_le_right v _).trans_lt (Nat.sub_lt some (by decide))

@[simp] theorem fldBit_fits (b : Bool) : Fits (fldBit b) := by
  unfold Fits fldBit
  cases b <;> decide

@[simp] theorem fld_width (width v : Nat) : (fld width v).1 = width := rfl

@[simp] theorem fldAbsent_width (width : Nat) (o : Option Nat) : (fldAbsent width o).1 = width := by
  cases o <;> rfl

@[simp] theorem fldBit_width (b : Bool) : (fldBit b).1 = 1 := rfl

theorem fld_eq_plainField (width v : Nat) : fld width v = plainField width v := by
  have some := Nat.two_pow_pos width
  unfold fld plainField
  split
  · next low => rw [Nat.min_eq_left (Nat.le_sub_one_of_lt low)]
  · next high => rw [Nat.min_eq_right ((Nat.sub_le _ _).trans (Nat.le_of_not_lt high))]

theorem fldAbsent_eq_absentField (width : Nat) (o : Option Nat) : fldAbsent width o = absentField width o := by
  cases o with
  | none => rfl
  | some v =>
    simp only [fldAbsent, absentField]
    split
    · next low => rw [Nat.min_eq_left (by omega)]
    · next high => rw [Nat.min_eq_right (by omega)]

/-- The width that packed fields take. -/
def packedWidth (fs : List Field) : Nat := (fs.map (·.1)).sum

theorem pack_lt {fs : List Field} (fits : ∀ x ∈ fs, Fits x) : pack fs < 2 ^ packedWidth fs := by
  induction fs with
  | nil => exact Nat.one_pos
  | cons x fs ih =>
    obtain ⟨first, others⟩ := List.forall_mem_cons.mp fits
    have rest := ih others
    have width : packedWidth (x :: fs) = x.1 + packedWidth fs := List.sum_cons
    calc x.2 + 2 ^ x.1 * pack fs < 2 ^ x.1 + 2 ^ x.1 * pack fs := Nat.add_lt_add_right first _
      _ = 2 ^ x.1 * (pack fs + 1) := by rw [Nat.mul_add_one, Nat.add_comm]
      _ ≤ 2 ^ x.1 * 2 ^ packedWidth fs := Nat.mul_le_mul_left _ rest
      _ = 2 ^ packedWidth (x :: fs) := by rw [width, Nat.pow_add]

theorem holdsFields_pack {fs : List Field} (fits : ∀ x ∈ fs, Fits x) : HoldsFields (pack fs) fs := by
  induction fs with
  | nil => rfl
  | cons x fs ih =>
    obtain ⟨first, others⟩ := List.forall_mem_cons.mp fits
    refine ⟨?_, ?_⟩
    · show (x.2 + 2 ^ x.1 * pack fs) % 2 ^ x.1 = x.2
      rw [Nat.add_mul_mod_self_left, Nat.mod_eq_of_lt first]
    · show HoldsFields ((x.2 + 2 ^ x.1 * pack fs) / 2 ^ x.1) fs
      rw [Nat.add_mul_div_left _ _ (Nat.two_pow_pos _), Nat.div_eq_of_lt first, Nat.zero_add]
      exact ih others

/-! ## Items and their rows -/

/-- The row of an item. -/
def Item.row (it : Item) : ItemRow := (it.code, it.fields)

/-- An item that a data frame can carry: a code of 4 bits, and fields within its 51 bits. -/
structure Item.Carried (it : Item) : Prop where
  code : it.code < 16
  fits : ∀ x ∈ it.fields, Fits x
  width : packedWidth it.fields ≤ 51

section Frames

variable {s : State} {f : Frame} {n : Nat} {last : Bool} {it : Item}

theorem dataFrame_head (s : State) (f : Frame) (low : n < 16) (last : Bool) (it : Item) :
    (dataFrame s f n last it).kind = 9 ∧ (dataFrame s f n last it).index.val = n ∧
    (dataFrame s f n last it).station = s.startup.own ∧ (dataFrame s f n last it).data.length = 8 ∧
    (dataFrame s f n last it).byte 0 = answerHead f last := by
  obtain ⟨kind, index, station⟩ := State.ownFrame_head s 9 n (dataFrame s f n last it).data (by decide) low
  exact ⟨kind, index, station, rfl, byte1_value_of_lt (answerHead_lt f last)⟩

theorem dataFrame_carries (h : it.Carried) : CarriesItem (dataFrame s f n last it) it.row := by
  obtain ⟨code, fits, width⟩ := h
  have bound : pack it.fields < 2 ^ 51 := (pack_lt fits).trans_le (Nat.pow_le_pow_right Nat.two_pos width)
  let p := pack it.fields
  let g := dataFrame s f n last it
  have item : g.byte 1 = it.code + 16 * (p / 2 ^ 47 % 16) := byte1_value_of_lt (by omega)
  have status : g.byte 2 = 128 + p / 2 ^ 40 % 128 := byte1_value_of_lt (by omega)
  have high : g.word 3 = p / 2 ^ 16 % 65536 := byte2_value (Nat.mod_lt _ (by decide))
  have low : g.word 5 = p % 65536 := byte2_value (Nat.mod_lt _ (by decide))
  have extension : g.byte 7 = p / 2 ^ 32 % 256 := byte1_value_of_lt (Nat.mod_lt _ (by decide))
  have bits : itemBits g = p := by
    unfold itemBits
    rw [item, status, high, low, extension]
    omega
  refine ⟨?_, ?_, ?_⟩
  · show g.byte 1 % 16 = it.code
    rw [item]
    omega
  · exact (Nat.le_add_right 128 _).trans_eq status.symm
  · show HoldsFields (itemBits g) it.fields
    rw [bits]
    exact holdsFields_pack fits

end Frames

/-! ## The items of the groups -/

/-- The counters of a group stand at the places of its range (R141). -/
theorem groupCounters_places {g : Nat} (h : g ≤ 8) :
    ((List.finRange 62).drop (groupRange g).1).take (groupRange g).2 = (groupCounters g).map Counter.index := by
  revert g
  decide

theorem counterItems_rows (s : State) {g : Nat} (h : g ≤ 8) :
    (s.counterItems (groupRange g).1 (groupRange g).2).map Item.row = counterRows s (groupCounters g) := by
  have cells : (s.accounting.counters.toList.drop (groupRange g).1).take (groupRange g).2 =
      (groupCounters g).map s.cell := by
    have places : s.accounting.counters.toList = (List.finRange 62).map fun i => s.accounting.counters[i] :=
      List.ext_getElem (by simp) (by simp)
    rw [places, ← List.map_drop, ← List.map_take, groupCounters_places h, List.map_map]
    rfl
  unfold State.counterItems counterRows
  rw [cells, List.zipIdx_map, List.map_map, List.map_map]
  refine List.map_congr_left fun x _ => ?_
  simp only [Function.comp, Item.row, fld_eq_plainField]
  rfl

theorem inletItems_rows (s : State) : s.inletItems.map Item.row = loadRows s := by
  simp only [State.inletItems, loadRows, List.map, Item.row, fld_eq_plainField, fldAbsent_eq_absentField]
  cases s.mix.kind <;> rfl

theorem peerItems_rows (e : PeerEntry) : (peerItems e).map Item.row = peerRows e := by
  simp only [peerItems, peerRows, List.map, Item.row, fld_eq_plainField, fldAbsent_eq_absentField]
  cases e.presence <;> rfl

theorem speciesField (m : Species) : plainField 2 (speciesCode m) = maskField m := by
  obtain ⟨pm, no2⟩ := m
  cases pm <;> cases no2 <;> rfl

theorem recordItem_row (r : PlumeRecord) : (recordItem r).row = plumeRow r := by
  simp only [recordItem, plumeRow, Item.row, fld_eq_plainField, fldAbsent_eq_absentField, speciesField]
  cases r.phase <;> rfl

theorem inletTimeline_rows {s : State} (inlet : s.startup.role = .inlet) :
    s.timelineItems.map Item.row = timelineRows s := by
  have records : s.timeline.records.map (Item.row ∘ recordItem) = s.timeline.records.map plumeRow :=
    List.map_congr_left fun r _ => recordItem_row r
  unfold State.timelineItems timelineRows
  rw [inlet]
  simp only [List.cons_append, List.nil_append, List.map_cons, Item.row, fld_eq_plainField, List.map_map]
  rw [records]
  cases s.timeline.hold <;> rfl

theorem forwardTimeline_rows {s : State} (forward : s.startup.role = .forward) :
    s.timelineItems.map Item.row = detectorRows s := by
  unfold State.timelineItems detectorRows
  rw [forward]
  simp only [List.map_cons, Item.row, fld_eq_plainField, speciesField, List.map_map]
  cases s.detector.state <;> rfl

theorem cabinTimeline_rows {s : State} (cabin : s.startup.role = .cabin) : s.timelineItems.map Item.row = [] := by
  unfold State.timelineItems
  rw [cabin]
  rfl

theorem timelineItems_rows (s : State) : s.timelineItems.map Item.row = answerRows s 10 := by
  unfold answerRows
  cases role : s.startup.role with
  | inlet => exact inletTimeline_rows role
  | forward => exact forwardTimeline_rows role
  | cabin => exact cabinTimeline_rows role

theorem regimeField (r : Regime) : fldAbsent 3 (some (regimeCode r).val) = plainField 3 (regimeCode r).val := by
  cases r <;> rfl

theorem demandsItems_rows (s : State) : s.demandsItems.map Item.row = demandRows s := by
  have entries : s.demands.entries.map (Item.row ∘ entryItem) = s.demands.entries.map fun e =>
      (1, [plainField 16 e.stamp, plainField 8 (e.hold.getD 0 / 1000), plainField 3 e.station.val,
        plainField 4 e.source.val, plainField 2 (demandRegimeCode e.regime), plainField 3 e.level]) := by
    simp only [Function.comp_def, entryItem, Item.row, fld_eq_plainField]
  unfold State.demandsItems demandRows
  dsimp only
  split
  · simp only [List.map_cons, List.map_map, entries, Item.row, fld_eq_plainField, regimeField]
    rfl
  · simp only [List.map_cons, List.map_nil, Item.row, fld_eq_plainField, regimeField]

theorem flagsItems_rows (s : State) : s.flagsItems.map Item.row = flagRows s := by
  have classes (f : Flag) : classCode (flagClass s.cfg f) =
      match flagClass s.cfg f with
      | .none => 0
      | .report => 1
      | .lamp => 2 := by cases flagClass s.cfg f <;> rfl
  unfold State.flagsItems flagRows
  simp only [List.cons_append, List.nil_append, List.map_cons, Item.row, fld_eq_plainField, List.map_map, classes,
    Function.comp_def, State.ruleItem]
  rfl

theorem slotItems_rows (s : State) : ((List.finRange 16).map s.slotItem).map Item.row = slotRows s := by
  simp only [List.map_map, Function.comp_def, State.slotItem, Item.row, fld_eq_plainField, fldAbsent_eq_absentField]
  rfl

theorem peersItems_rows (s : State) : s.peersItems.map Item.row =
    ((List.finRange 8).filter fun n => decide (n ≠ s.startup.own)).flatMap fun n => peerRows s.peers[n] := by
  simp only [State.peersItems, State.others, List.map_flatMap, peerItems_rows]

/-- The items of a group are the rows of the table of R179. -/
theorem groupItems_rows (s : State) {argument : Nat} (known : argument ≤ 13) :
    (s.groupItems argument).map Item.row = answerRows s argument := by
  match argument, known with
  | 4, _ =>
    refine (List.map_append ..).trans ?_
    exact congrArg₂ (· ++ ·) (counterItems_rows s (g := 4) (by decide)) (inletItems_rows s)
  | 9, _ => exact peersItems_rows s
  | 10, _ => exact timelineItems_rows s
  | 11, _ => exact demandsItems_rows s
  | 12, _ => exact flagsItems_rows s
  | 13, _ => exact slotItems_rows s
  | 0, _ | 1, _ | 2, _ | 3, _ | 5, _ | 6, _ | 7, _ | 8, _ => exact counterItems_rows s (by decide)

/-! ## Every item fits its frame -/

theorem groupRange_le {g : Nat} (low : g ≤ 8) : (groupRange g).2 ≤ 12 := by
  revert g
  decide

theorem counterItems_carried (s : State) (first : Nat) {count : Nat} (few : count ≤ 12) :
    ∀ it ∈ s.counterItems first count, it.Carried := by
  intro it among
  obtain ⟨x, cell, rfl⟩ := List.mem_map.mp among
  refine ⟨?_, by simp, by simp [packedWidth]⟩
  have place := List.snd_lt_of_mem_zipIdx cell
  rw [List.length_take] at place
  exact place.trans_le ((Nat.min_le_left _ _).trans (few.trans (by decide)))

theorem inletItems_carried (s : State) : ∀ it ∈ s.inletItems, it.Carried := by
  simp only [State.inletItems, List.forall_mem_cons]
  refine ⟨?_, ?_, ?_, ?_, ?_, nofun⟩ <;> exact ⟨by simp, by simp, by simp [packedWidth]⟩

theorem peerItems_carried (e : PeerEntry) : ∀ it ∈ peerItems e, it.Carried := by
  simp only [peerItems, List.forall_mem_cons]
  exact ⟨⟨by simp, by simp, by simp [packedWidth]⟩, ⟨by simp, by simp, by simp [packedWidth]⟩, nofun⟩

theorem recordItem_carried (r : PlumeRecord) : (recordItem r).Carried :=
  ⟨by simp [recordItem], by simp [recordItem], by simp [recordItem, packedWidth]⟩

theorem timelineItems_carried (s : State) : ∀ it ∈ s.timelineItems, it.Carried := by
  unfold State.timelineItems
  cases s.startup.role with
  | inlet =>
    simp only [List.cons_append, List.nil_append, List.forall_mem_cons, List.forall_mem_map]
    exact ⟨⟨by simp, by simp, by simp [packedWidth]⟩, ⟨by simp, by simp, by simp [packedWidth]⟩,
      fun r _ => recordItem_carried r⟩
  | forward =>
    simp only [List.forall_mem_cons, List.forall_mem_map]
    exact ⟨⟨by simp, by simp, by simp [packedWidth]⟩, fun i _ => ⟨by simp, by simp, by simp [packedWidth]⟩⟩
  | cabin => exact nofun

theorem demandsItems_carried (s : State) : ∀ it ∈ s.demandsItems, it.Carried := by
  unfold State.demandsItems
  dsimp only
  split
  · simp only [List.forall_mem_cons, List.forall_mem_map, entryItem]
    exact ⟨⟨by simp, by simp, by simp [packedWidth]⟩, fun i _ => ⟨by simp, by simp, by simp [packedWidth]⟩⟩
  · simp only [List.forall_mem_cons]
    exact ⟨⟨by simp, by simp, by simp [packedWidth]⟩, nofun⟩

theorem flagsItems_carried (s : State) : ∀ it ∈ s.flagsItems, it.Carried := by
  simp only [State.flagsItems, List.cons_append, List.nil_append, List.forall_mem_cons, List.forall_mem_map,
    State.ruleItem]
  have bits : packedWidth (allFlags.map fun f => fldBit (s.flag f)) ≤ 51 := by
    rw [packedWidth, List.map_map]
    exact (by decide : (allFlags.map fun _ => 1).sum ≤ 51)
  have classes : packedWidth (allFlags.map fun f => fld 2 (classCode (flagClass s.cfg f))) ≤ 51 := by
    rw [packedWidth, List.map_map]
    exact (by decide : (allFlags.map fun _ => 2).sum ≤ 51)
  exact ⟨⟨by simp, by simp, bits⟩, ⟨by simp, by simp, classes⟩, ⟨by simp, by simp, by simp [packedWidth]⟩,
    fun n _ => ⟨by simp, by simp, by simp [packedWidth]⟩⟩

theorem slotItem_carried (s : State) (i : Fin 16) : (s.slotItem i).Carried :=
  ⟨i.isLt, by simp [State.slotItem], by simp [State.slotItem, packedWidth]⟩

theorem groupItems_carried (s : State) {argument : Nat} (known : argument ≤ 13) :
    ∀ it ∈ s.groupItems argument, it.Carried := by
  have counters {g : Nat} (low : g ≤ 8) := counterItems_carried s (groupRange g).1 (groupRange_le low)
  match argument, known with
  | 4, _ => exact List.forall_mem_append.mpr ⟨counters (g := 4) (by decide), inletItems_carried s⟩
  | 9, _ => exact List.forall_mem_flatMap.mpr fun n _ => peerItems_carried s.peers[n]
  | 10, _ => exact timelineItems_carried s
  | 11, _ => exact demandsItems_carried s
  | 12, _ => exact flagsItems_carried s
  | 13, _ => exact List.forall_mem_map.mpr fun i _ => slotItem_carried s i
  | 0, _ | 1, _ | 2, _ | 3, _ | 5, _ | 6, _ | 7, _ | 8, _ => exact counters (by decide)

/-! ## The frames of a snapshot (R178) -/

/-- The frames of these items, numbered from `n`, the last with its mark. -/
def itemFrames (s : State) (f : Frame) (n : Nat) : List Item → List Frame
  | [] => []
  | it :: its => dataFrame s f n its.isEmpty it :: itemFrames s f (n + 1) its

theorem itemFrames_length (s : State) (f : Frame) (n : Nat) (its : List Item) :
    (itemFrames s f n its).length = its.length := by
  induction its generalizing n with
  | nil => rfl
  | cons it its ih => exact congrArg Nat.succ (ih (n + 1))

/-- Frames are numbered in item order. -/
theorem itemFrames_get (s : State) (f : Frame) (n : Nat) (its : List Item) {k : Nat} {it : Item}
    (item : its[k]? = some it) :
    (itemFrames s f n its)[k]? = some (dataFrame s f (n + k) (decide (k + 1 = its.length)) it) := by
  induction its generalizing n k with
  | nil => cases item
  | cons first its ih =>
    cases k with
    | zero =>
      obtain rfl := Option.some.inj item
      have last : its.isEmpty = decide (0 + 1 = (first :: its).length) := by cases its <;> simp
      rw [itemFrames, last]
      rfl
    | succ k =>
      have later := ih (n + 1) (k := k) item
      rw [Nat.add_right_comm, Nat.add_assoc n k 1] at later
      simpa [itemFrames] using later

namespace State

variable {s t : State} {f : Frame} {rest : List Frame}

theorem itemFrames_own (same : t.startup.own = s.startup.own) (f : Frame) (n : Nat) (its : List Item) :
    itemFrames t f n its = itemFrames s f n its := by
  induction its generalizing n with
  | nil => rfl
  | cons it its ih =>
    have frame : dataFrame t f n its.isEmpty it = dataFrame s f n its.isEmpty it := by
      unfold dataFrame ownFrame
      rw [same]
    rw [itemFrames, itemFrames, frame, ih]

/-- Items that find room are queued in order, and nothing else changes. -/
theorem queueItems_queued (f : Frame) (n : Nat) (its : List Item)
    (room : (s.frames .answer).length + its.length ≤ 16) :
    (s.queueItems f n its).frames .answer = s.frames .answer ++ itemFrames s f n its ∧
      Only [.boxes] s (s.queueItems f n its) ∧ Notes [.box .answer] s (s.queueItems f n its) := by
  induction its generalizing n s with
  | nil => exact ⟨(List.append_nil _).symm, Only.refl _ s, Notes.refl _ s⟩
  | cons it its ih =>
    rw [List.length_cons] at room
    let h := freshHeld (dataFrame s f n its.isEmpty it)
    have free : (s.frames .answer).length < 16 := by omega
    have held : s.hold .answer h = s.putBox .answer h := hold_of_room (supersedes_answer_room free) h
    have queued : (s.hold .answer h).frames .answer = s.frames .answer ++ [h.frame] := frames_hold_answer_room free h
    obtain ⟨frames, only, notes⟩ := ih (s := s.hold .answer h) (n + 1) (by
      rw [queued, List.length_append]
      exact (Nat.add_right_comm _ _ _).trans_le room)
    have first : Only [.boxes] s (s.hold .answer h) := held ▸ s.putBox_only .answer h
    obtain ⟨own, -⟩ : Part.straps.same s (s.hold .answer h) := first .straps (by decide)
    refine ⟨?_, first.trans only, (held ▸ s.putBox_notes .answer h : Notes _ s (s.hold .answer h)).trans notes⟩
    refine frames.trans ?_
    rw [queued, itemFrames_own own, List.append_assoc]
    rfl

theorem answer_isEmpty_iff : s.transmit.boxes.answer.isEmpty = true ↔ s.frames .answer = [] := by
  rw [List.isEmpty_iff]
  exact List.map_eq_nil_iff.symm

theorem takeQuery_snapshot (idle : s.frames .answer = []) {it : Item} {its : List Item}
    (items : (s.groupItems (f.byte 1)).take 16 = it :: its) : s.takeQuery f = s.queueItems f 0 (it :: its) := by
  unfold takeQuery
  rw [if_pos (answer_isEmpty_iff.mpr idle), maxItems, items]

theorem takeQuery_empty (idle : s.frames .answer = []) (none : (s.groupItems (f.byte 1)).take 16 = []) :
    s.takeQuery f = s.answer f statusAccepted := by
  unfold takeQuery
  rw [if_pos (answer_isEmpty_iff.mpr idle), maxItems, none]

theorem takeQuery_busy (drains : s.frames .answer ≠ []) : s.takeQuery f =
    if s.transmit.boxes.answer.length < answerCapacity then (s.count .superseded).answer f statusBusy
    else s.count .superseded := if_neg (mt answer_isEmpty_iff.mp drains)

end State

/-- Settles O51: the snapshot's items by `groupItems_rows`, its frames by `State.queueItems_queued`. -/
theorem queryAnswersWithASnapshot : Obligations.QueryAnswersWithASnapshot := by
  intro s f rest asked known rows
  let d := s.dequeue
  let items := (s.groupItems (f.byte 1)).take 16
  have shown : rows = items.map Item.row := by
    show (answerRows s (f.byte 1)).take 16 = _
    rw [← groupItems_rows s known, List.map_take]
  have few : items.length ≤ 16 := List.length_take_le _ _
  have run : exec .query s = .next (d.takeQuery f).chooseOffer := asked.served (r := .query) (requestOf_query known)
  refine ⟨_, run, asked.delivered.queueKept (d.takeQuery_only f), fun (idle : d.frames .answer = []) some => ?_,
    fun (idle : d.frames .answer = []) none => ?_, fun drains => ?_,
    Changes.ends (d.takeQuery_only f).taken (d.takeQuery_notes f).taken⟩
  · cases list : items with
    | nil => exact absurd (shown.trans (list ▸ rfl)) some
    | cons it its =>
      rw [State.takeQuery_snapshot (s := d) idle list, ← list]
      obtain ⟨queued, only, notes⟩ := State.queueItems_queued (s := d) f 0 items
        (by rw [idle, List.length_nil, Nat.zero_add]; exact few)
      rw [idle, List.nil_append, ← State.frames_chooseOffer] at queued
      have count : items.length = rows.length := by rw [shown, List.length_map]
      refine ⟨?_, fun k a row frame listed => ?_, Changes.ends only.taken notes.taken⟩
      · rw [queued, itemFrames_length, count]
      · rw [shown, List.getElem?_map, Option.map_eq_some_iff] at listed
        obtain ⟨it, item, rfl⟩ := listed
        rw [queued, itemFrames_get d f 0 items item, Nat.zero_add, count] at frame
        obtain rfl := Option.some.inj frame
        have low : k < items.length := (List.getElem?_eq_some_iff.mp item).1
        obtain ⟨kind, index, station, length, head⟩ :=
          dataFrame_head d f (low.trans_le few) (decide (k + 1 = rows.length)) it
        refine ⟨kind, index, station, length, head.trans ?_, dataFrame_carries ?_⟩
        · unfold answerHead
          rw [asked.code]
          simp
        · exact groupItems_carried s known it (List.mem_of_mem_take (List.mem_of_getElem? item))
  · have empty : items = [] := List.map_eq_nil_iff.mp (shown.symm.trans none)
    rw [State.takeQuery_empty (s := d) idle empty]
    obtain ⟨-, answered, changes⟩ := asked.delivered.answeredAlone (status := statusAccepted) (by decide)
    refine ⟨answered, changes, fun a among => ?_⟩
    have only := State.frames_hold_answer_room (s := d) (by rw [idle]; decide)
      (freshHeld (answerFrame d f statusAccepted))
    rw [State.frames_chooseOffer, State.answer, only, idle] at among
    obtain rfl := List.mem_singleton.mp among
    obtain ⟨-, -, -, -, -, -, low, high⟩ := answerFrame_fields d f (status := statusAccepted) (by decide)
    exact ⟨low, high⟩
  · rw [State.takeQuery_busy (s := d) drains, State.cell_chooseOffer, State.frames_chooseOffer]
    have counted : (d.count .superseded).cell .superseded = (s.cell .superseded).add 1 := by
      rw [State.cell_count, if_pos rfl]
      rfl
    have frames : (d.count .superseded).frames .answer = s.frames .answer :=
      State.frames_same (d.count_notes _ (.box .answer) (by simp))
    split
    · next room =>
      have room : ((d.count .superseded).frames .answer).length < 16 := by
        rw [frames]
        exact s.frames_answer_length.trans_lt room
      let h := freshHeld (answerFrame (d.count .superseded) f statusBusy)
      obtain ⟨kind, index, -, -, head, byte, -⟩ :=
        answerFrame_fields (d.count .superseded) f (status := 2) (by decide)
      refine ⟨(State.hold_answer_notes_of_room room h (.counter .superseded) (by simp)).trans counted, fun _ => ?_,
        fun full => absurd (frames ▸ room) (Nat.not_lt.mpr full)⟩
      refine ⟨_, (State.frames_hold_answer_room room h).trans (congrArg (· ++ [h.frame]) frames), kind, index, ?_,
        byte⟩
      rw [asked.code] at head
      exact head
    · next full =>
      exact ⟨counted, fun room => absurd (s.frames_answer_length.symm.trans_lt room) full, fun _ => frames⟩

end Sys2Proof.Machine
end

section
/-! PROOFS. The entry to RUNNING (O8, R105, R106, R183). -/

namespace Sys2Proof.Machine

open Sys2Proof

section Emitters

variable {s t u : State} {m n : Fin 16}

/-- The emitter of a source and its mailbox are the same. -/
def EmitterKept (m : Fin 16) (s t : State) : Prop :=
  t.emitters.demand[m] = s.emitters.demand[m] ∧ t.frames (.demand m) = s.frames (.demand m)

theorem EmitterKept.refl (m : Fin 16) (s : State) : EmitterKept m s s := ⟨rfl, rfl⟩

theorem EmitterKept.trans (h : EmitterKept m s t) (k : EmitterKept m t u) : EmitterKept m s u :=
  ⟨k.1.trans h.1, k.2.trans h.2⟩

theorem EmitterKept.chooseOffer (h : EmitterKept m s t) : EmitterKept m s t.chooseOffer := by
  refine ⟨?_, (t.frames_chooseOffer _).trans h.2⟩
  rw [t.emitters_chooseOffer]
  exact h.1

theorem EmitterBegun.kept {r : DemandRegime} {level : Nat} (h : EmitterBegun n r level t) (kept : EmitterKept n t u)
    (cfg : u.cfg = t.cfg) (own : u.startup.own = t.startup.own) : EmitterBegun n r level u := by
  obtain ⟨emitter, queued⟩ := h
  obtain ⟨same, frames⟩ := kept
  exact ⟨by rw [same, cfg]; exact emitter, by rw [frames, cfg, own]; exact queued⟩

namespace State

/-- A source without a DEMAND, and an emitter that is HELD, begin nothing (R105). -/
theorem emitterBegins_idle (h : emitterDemand s.cfg n = none ∨ s.emitters.demand[n].held = true) :
    s.emitterBegins n = s := by
  unfold emitterBegins
  rcases h with none | held
  · rw [none]
  · split
    · rfl
    · exact if_neg fun off => absurd (held.symm.trans off.2) (by decide)

theorem emitterBegins_others (other : s.startup.role ≠ .inlet) :
    (∀ m, m ≠ n → (s.emitterBegins n).emitters.demand[m] = s.emitters.demand[m]) ∧
      (s.emitterBegins n).emitters.safe = s.emitters.safe := by
  cases demand : emitterDemand s.cfg n with
  | none =>
    rw [emitterBegins_idle (.inl demand)]
    exact ⟨fun _ _ => rfl, rfl⟩
  | some x =>
    have handed := s.conditionChanged_handed n x.1 x.2 true fun _ => demand
    rw [show s.conditionChanged n x.1 x.2 true = s.emitterBegins n from if_neg other] at handed
    exact handed.others

theorem emitterBegins_elsewhere (other : s.startup.role ≠ .inlet) (ne : m ≠ n) :
    EmitterKept m s (s.emitterBegins n) :=
  ⟨(emitterBegins_others other).1 m ne, frames_same (s.emitterBegins_notes n (.box (.demand m)) (by simpa using ne))⟩

theorem emitterTakes_role (other : s.startup.role ≠ .inlet) (n : Fin 16) :
    (s.emitterTakes n).startup.role ≠ .inlet := by
  rwa [show (s.emitterTakes n).startup.role = _ from s.emitterTakes_only n .role (by decide)]

theorem emittersFold_safe (l : List (Fin 16)) (other : s.startup.role ≠ .inlet) :
    (l.foldl emitterTakes s).emitters.safe = s.emitters.safe ∧
      (l.foldl emitterTakes s).frames .safe = s.frames .safe := by
  induction l generalizing s with
  | nil => exact ⟨rfl, rfl⟩
  | cons n l ih =>
    obtain ⟨emitter, frames⟩ := ih (emitterTakes_role other n)
    have first : (s.emitterTakes n).emitters.safe = s.emitters.safe := by
      unfold emitterTakes
      split
      · exact (emitterBegins_others other).2
      · rfl
    exact ⟨emitter.trans first, frames.trans (frames_same (s.emitterTakes_notes n (.box .safe) (by simp)))⟩

theorem emitterTakes_elsewhere (other : s.startup.role ≠ .inlet) (ne : m ≠ n) :
    EmitterKept m s (s.emitterTakes n) := by
  unfold emitterTakes
  split
  · exact emitterBegins_elsewhere other ne
  · exact .refl m s

theorem emittersFold_elsewhere (l : List (Fin 16)) (other : s.startup.role ≠ .inlet) (outside : m ∉ l) :
    EmitterKept m s (l.foldl emitterTakes s) := by
  induction l generalizing s with
  | nil => exact .refl m s
  | cons n l ih =>
    obtain ⟨ne, later⟩ := not_or.mp (mt List.mem_cons.mpr outside)
    exact (emitterTakes_elsewhere other ne).trans (ih (emitterTakes_role other n) later)

/-- Among the emitters that take their conditions, one takes its own once. -/
theorem emittersFold_at {l : List (Fin 16)} (once : l.Nodup) (among : m ∈ l) (other : s.startup.role ≠ .inlet) :
    ∃ u, Only emitterParts s u ∧ EmitterKept m s u ∧ EmitterKept m (u.emitterTakes m) (l.foldl emitterTakes s) := by
  induction l generalizing s with
  | nil => cases among
  | cons n l ih =>
    obtain ⟨fresh, once⟩ := List.nodup_cons.mp once
    have role := emitterTakes_role other n
    rcases List.mem_cons.mp among with rfl | later
    · exact ⟨s, Only.refl _ s, .refl m s, emittersFold_elsewhere l role fresh⟩
    · obtain ⟨u, only, kept, taken⟩ := ih once later role
      have ne : m ≠ n := fun is => fresh (is ▸ later)
      exact ⟨u, (s.emitterTakes_only n).trans only, (emitterTakes_elsewhere other ne).trans kept, taken⟩

/-! ## The conditions at the entry to RUNNING -/

/-- The station RUNNING, its joining timer stopped (R183). -/
def running (s : State) : State := { s with startup := { s.startup with station := .running, joining := none } }

theorem running_only (s : State) : Only [.station, .joining] s s.running := by
  intro p hp
  cases p <;> first | rfl | exact ⟨rfl, rfl⟩ | exact ⟨rfl, rfl, rfl⟩ | exact absurd (by decide) hp

theorem running_notes (s : State) : Notes [] s s.running := Notes.plain rfl rfl rfl

/-- Outside LOADING the functions of the inputs do not depend on the station state (R22). -/
theorem functionLevel_outside (before : s.startup.station ≠ .loading) (after : t.startup.station ≠ .loading)
    (inputs : t.inputs = s.inputs) (cfg : t.cfg = s.cfg) (role : t.startup.role = s.startup.role) (f : InputFunction) :
    t.functionLevel f = s.functionLevel f := by
  have function (i : Fin 4) : t.inputFunction i = s.inputFunction i := by
    unfold inputFunction
    rw [if_neg before, if_neg after, cfg, role]
  have active (i : Fin 4) : t.inputActive i = s.inputActive i := by
    unfold inputActive
    rw [inputs, cfg]
  simp only [functionLevel, function, active]

/-- What leaves their sources leaves the conditions of the emitters (R105, R106). -/
theorem conditions_outside {ps : List Part} (only : Only ps s t) (before : s.startup.station ≠ .loading)
    (after : t.startup.station ≠ .loading) (sources : ∀ p ∈ [Part.inputs, .cfg, .role, .rules, .scrub], p ∉ ps) :
    (∀ n, t.emitterCondition n = s.emitterCondition n) ∧ t.forceRequest = s.forceRequest ∧
      t.ruleSafe = s.ruleSafe := by
  simp only [List.forall_mem_cons] at sources
  obtain ⟨inputs, cfg, role, rules, scrub, -⟩ := sources
  have inputs : t.inputs = s.inputs := only .inputs inputs
  have cfg : t.cfg = s.cfg := only .cfg cfg
  have rules : t.rules = s.rules := only .rules rules
  have scrub : t.scrub = s.scrub := only .scrub scrub
  have level := functionLevel_outside before after inputs cfg (only .role role)
  refine ⟨fun n => ?_, ?_, ruleSafe_congr rules cfg⟩
  · unfold emitterCondition recircSwitch flushSwitch
    rw [level, level, scrub, rules, cfg]
  · unfold forceRequest
    rw [level, inputs]

theorem exec_joiningTimerExpiry (joining : s.startup.station = .joining) (runs : s.startup.joining.isSome = true) :
    exec .joiningTimerExpiry s = .next s.enterRunning.chooseOffer := if_pos ⟨joining, runs⟩

theorem enterRunning_inlet (inlet : s.startup.role = .inlet) : s.enterRunning = s.running.rederive := if_pos inlet

theorem enterRunning_elsewhere (other : s.startup.role ≠ .inlet) : s.enterRunning = s.running.emittersTake :=
  if_neg other

end State

end Emitters

theorem SafeEmitterBegun.chooseOffer {t : State} (h : SafeEmitterBegun t) : SafeEmitterBegun t.chooseOffer := by
  obtain ⟨x, same, frames⟩ := t.chooseOffer_eq_transmit
  rw [same]
  exact ⟨h.emitter, by rw [frames]; exact h.queued⟩

namespace State

variable {s : State} {n : Fin 16}

/-- At the entry to RUNNING the emitter of a source does what the begin of its condition does (R105). -/
theorem emittersTake_at (other : s.startup.role ≠ .inlet) (n : Fin 16) : ∃ u, Only emitterParts s u ∧
    EmitterKept n s u ∧ EmitterKept n (u.emitterTakes n) s.emittersTake := by
  let w := (List.finRange 16).foldl emitterTakes s
  have folded : Only emitterParts s w := Only.foldl emitterTakes_only _ s
  have role : w.startup.role ≠ .inlet := (folded .role (by decide)).trans_ne other
  obtain ⟨u, only, kept, taken⟩ := emittersFold_at (List.nodup_finRange 16) (List.mem_finRange n) other
  have last : EmitterKept n w w.safeReasonsChanged :=
    ⟨congrArg (fun v => v[n]) (w.safeReasonsChanged_handed w.safe role).others.1,
      frames_same (w.safeReasonsChanged_notes (.box (.demand n)) (by simp))⟩
  exact ⟨u, only, kept, taken.trans last⟩

/-- An emitter's own step among the others meets the conditions as they stand (R105). -/
theorem emitterCondition_kept {u : State} (works : s.emittersWork = true) (only : Only emitterParts s u) (n : Fin 16) :
    u.emitterCondition n = s.emitterCondition n := by
  have running := (emittersWork_iff.mp works).2
  have calm : s.startup.station ≠ .loading := by rw [running]; decide
  exact (conditions_outside only calm ((only .station (by decide)).trans_ne calm) (by decide)).1 n

theorem emittersTake_begun (works : s.emittersWork = true) {r : DemandRegime} {level : Nat}
    (demand : emitterDemand s.cfg n = some (r, level)) (off : s.emitters.demand[n].held = false)
    (holds : s.emitterCondition n = true) : EmitterBegun n r level s.emittersTake := by
  obtain ⟨other, running⟩ := emittersWork_iff.mp works
  obtain ⟨u, only, before, after⟩ := emittersTake_at other n
  have cfg : u.cfg = s.cfg := only .cfg (by decide)
  have working : u.emittersWork = true :=
    emittersWork_iff.mpr ⟨(only .role (by decide)).trans_ne other, (only .station (by decide)).trans running⟩
  have takes : u.emitterTakes n = u.emitterBegins n := if_pos ((emitterCondition_kept works only n).trans holds)
  rw [takes] at after
  have begun := u.emitterBegins_begun n r level (by rw [cfg]; exact demand) working
    ((congrArg Emitter.held before.1).trans off)
  have reached := only.trans (u.emitterBegins_only n)
  have all := s.emittersTake_only
  obtain ⟨own, -⟩ : Part.straps.same s (u.emitterBegins n) := reached .straps (by decide)
  obtain ⟨own', -⟩ : Part.straps.same s s.emittersTake := all .straps (by decide)
  have cfg : (u.emitterBegins n).cfg = s.cfg := reached .cfg (by decide)
  have cfg' : s.emittersTake.cfg = s.cfg := all .cfg (by decide)
  exact begun.kept after (cfg'.trans cfg.symm) (own'.trans own.symm)

theorem emittersTake_idle (works : s.emittersWork = true) (idle : emitterDemand s.cfg n = none ∨
    s.emitters.demand[n].held = true ∨ s.emitterCondition n = false) : EmitterKept n s s.emittersTake := by
  obtain ⟨u, only, before, after⟩ := emittersTake_at (emittersWork_iff.mp works).1 n
  have cfg : u.cfg = s.cfg := only .cfg (by decide)
  have condition := emitterCondition_kept works only n
  have held : u.emitters.demand[n].held = s.emitters.demand[n].held := congrArg Emitter.held before.1
  have takes : u.emitterTakes n = u := by
    unfold emitterTakes
    rw [condition]
    rcases idle with none | some | fails
    · rw [emitterBegins_idle (.inl (by rw [cfg]; exact none)), ite_self]
    · rw [emitterBegins_idle (.inr (held.trans some)), ite_self]
    · exact if_neg (by rw [fails]; decide)
  rw [takes] at after
  exact before.trans after

/-- At the entry to RUNNING the safe emitter begins with a reason that holds (R106). -/
theorem emittersTake_safe (works : s.emittersWork = true) (off : s.emitters.safe.held = false) :
    (s.forceRequest = true ∨ s.ruleSafe = true → SafeEmitterBegun s.emittersTake) ∧
      (s.forceRequest = false ∧ s.ruleSafe = false → s.emittersTake.emitters.safe = s.emitters.safe ∧
        s.emittersTake.frames .safe = s.frames .safe) := by
  obtain ⟨other, running⟩ := emittersWork_iff.mp works
  have calm : s.startup.station ≠ .loading := by rw [running]; decide
  have all := s.emittersTake_only
  obtain ⟨-, force, rule⟩ := conditions_outside all calm ((all .station (by decide)).trans_ne calm) (by decide)
  obtain ⟨emitter, frames⟩ := emittersFold_safe (List.finRange 16) other
  obtain ⟨w, folded, emitter, frames, form⟩ : ∃ w, Only emitterParts s w ∧ w.emitters.safe = s.emitters.safe ∧
      w.frames .safe = s.frames .safe ∧ s.emittersTake = w.safeReasonsChanged :=
    ⟨_, Only.foldl emitterTakes_only _ s, emitter, frames, rfl⟩
  have role : w.startup.role ≠ .inlet := (folded .role (by decide)).trans_ne other
  have station : w.startup.station = .running := (folded .station (by decide)).trans running
  have handed : SafeReasonHanded w.safe w s.emittersTake := form ▸ w.safeReasonsChanged_handed w.safe role
  have off : w.emitters.safe.held = false := (congrArg Emitter.held emitter).trans off
  refine ⟨fun some => handed.begins role station off ?_, fun none => ?_⟩
  · rw [force, rule]
    exact some
  · obtain ⟨stays, boxes⟩ := handed.stays role (.inr (.inr ⟨off, force.trans none.1, rule.trans none.2⟩))
    exact ⟨(congrArg Emitters.safe stays).trans emitter, boxes.trans frames⟩

end State

/-- Settles O8: on an INLET by `State.rederive_selected`, elsewhere each emitter by `State.emittersTake_at`. -/
theorem joiningTimerExpiryEntersRunning : Obligations.JoiningTimerExpiryEntersRunning := by
  intro s joining runs
  let r := s.running
  have run := State.exec_joiningTimerExpiry joining runs
  by_cases inlet : s.startup.role = .inlet
  · have works : r.listWorks = true := r.listWorks_iff.mpr ⟨inlet, nofun⟩
    have kept := r.rederive_only
    have ends := r.rederive.chooseOffer_only
    obtain ⟨selected, handed⟩ := r.rederive_selected works
    have station : r.rederive.startup.station = .running := kept .station (by decide)
    rw [State.enterRunning_inlet inlet] at run
    refine ⟨_, run, (ends .station (by decide)).trans station,
      (ends .joining (by decide)).trans (kept .joining (by decide)), fun _ => ⟨?_, handed.chooseOffer, ?_⟩,
      absurd inlet⟩
    · refine (ends .regime (by decide)).trans (selected.trans ?_)
      rw [station, show r.rederive.safe = s.safe from kept .safeSet (by decide),
        show r.rederive.tracker = s.tracker from kept .tracker (by decide),
        show r.rederive.demands = s.demands from kept .demands (by decide)]
      exact if_congr (or_iff_left (by decide)) rfl rfl
    · exact Changes.ends (s.running_only.append kept) (s.running_notes.seq r.rederive_notes (by simp) (by simp))
  · have works : s.running.emittersWork = true := State.emittersWork_iff.mpr ⟨inlet, rfl⟩
    have calm : s.startup.station ≠ .loading := by rw [joining]; decide
    obtain ⟨condition, force, rule⟩ := State.conditions_outside s.running_only calm (nofun : Station.running ≠ .loading)
      (by decide)
    have taken := s.running.emittersTake_only
    have ends := s.running.emittersTake.chooseOffer_only
    have station := taken .station (by decide)
    have stopped := taken .joining (by decide)
    have safe := State.emittersTake_safe works
    rw [State.enterRunning_elsewhere inlet] at run
    refine ⟨_, run, (ends .station (by decide)).trans station, (ends .joining (by decide)).trans stopped,
      (absurd · inlet), fun _ => ⟨fun n g level demand off holds => ?_, fun n idle => ?_, fun off some => ?_,
        fun off none => ?_, ?_⟩⟩
    · have begun := State.emittersTake_begun works demand off ((condition n).trans holds)
      exact begun.kept (EmitterKept.refl n _).chooseOffer (ends .cfg (by decide)) (ends .straps (by decide)).1
    · rw [← condition] at idle
      exact (State.emittersTake_idle works idle).chooseOffer
    · rw [← force, ← rule] at some
      exact ((safe off).1 (Bool.or_eq_true_iff.mp some)).chooseOffer
    · rw [← force, ← rule] at none
      obtain ⟨emitter, frames⟩ := (safe off).2 (Bool.or_eq_false_iff.mp none)
      exact ⟨(congrArg Emitters.safe (State.emitters_chooseOffer _)).trans emitter,
        (State.frames_chooseOffer _ _).trans frames⟩
    · exact Changes.ends (s.running_only.append taken)
        (s.running_notes.seq s.running.emittersTake_notes (by simp) (by simp))

end Sys2Proof.Machine
end

section
/-! PROOFS. The entry to JOINING (O7, R110, R180, R183). -/

namespace Sys2Proof.Machine

open Sys2Proof

/-! ## The sequencer as it starts (R5, R10, R17) -/

theorem startedRecord_quality (c : Cfg) (i : Fin 16) : (startedRecord c i).quality =
    if inSweep c i && c.slots[i].channel.isSome then .warming else .absent := by
  unfold startedRecord
  dsimp only
  split
  · split <;> rfl
  · rfl

theorem startedRecord_clear (c : Cfg) (i : Fin 16) :
    (startedRecord c i).value = 0 ∧ (startedRecord c i).seeded = false ∧ (startedRecord c i).burden = none ∧
      (startedRecord c i).suspect = none := by
  unfold startedRecord
  dsimp only
  split
  · split <;> exact ⟨rfl, rfl, rfl, rfl⟩
  · exact ⟨rfl, rfl, rfl, rfl⟩

theorem startedRecord_warming {c : Cfg} {i : Fin 16} (warming : (startedRecord c i).quality = .warming) :
    (startedRecord c i).warmedUp = decide (c.slots[i].warmUpS = 0) ∧
    (startedRecord c i).warmUp = if c.slots[i].warmUpS = 0 then none else some (c.slots[i].warmUpS * 1000) := by
  have reset : (resetRecord c i).quality = .warming := (startedRecord_quality c i).symm.trans warming
  unfold startedRecord
  dsimp only
  rw [if_pos reset]
  split
  · next elapsed => exact ⟨(decide_eq_true elapsed).symm, rfl⟩
  · next some => exact ⟨(decide_eq_false some).symm, rfl⟩

theorem startedRecord_absent {c : Cfg} {i : Fin 16} (absent : (startedRecord c i).quality = .absent) :
    (startedRecord c i).warmUp = none := by
  have reset : (resetRecord c i).quality = .absent := (startedRecord_quality c i).symm.trans absent
  unfold startedRecord
  dsimp only
  rw [if_neg (by rw [reset]; decide)]
  rfl

namespace State

variable {s t : State}

/-! ## An INLET in JOINING (R103, R110) -/

/-- In JOINING the regime of R103 is SAFE. -/
theorem selectRegime_joining (joining : s.startup.station = .joining) : s.selectRegime = .safe := by
  unfold selectRegime
  rw [joining]
  exact if_pos (Bool.or_true _)

/-- A local entry raised in JOINING leaves the regime. -/
theorem raiseLocal_joining (joining : s.startup.station = .joining) (regime : s.regime = .safe) (n : Fin 16)
    (r : DemandRegime) (level : Nat) : s.raiseLocal n r level = s.insertLocal n r level := by
  have only := s.insertLocal_only n r level
  refine reselect_of_same ?_
  rw [selectRegime_joining ((only .station (by decide)).trans joining)]
  exact ((only .regime (by decide)).trans regime).symm

/-- The regime SAFE with the safe codes as both targets. -/
structure SafeCodes (s : State) : Prop where
  regime : s.regime = .safe
  damper : s.ramps.damper.target = s.cfg.mix.safeDamper
  blower : s.ramps.blower.target = s.cfg.mix.safeBlower

theorem SafeCodes.of_only {ps : List Part} (h : SafeCodes s) (only : Only ps s t)
    (outside : ∀ p ∈ [Part.regime, .cfg, .damper, .blower], p ∉ ps := by decide) : SafeCodes t := by
  simp only [List.forall_mem_cons] at outside
  obtain ⟨regime, cfg, damper, blower, -⟩ := outside
  have cfg : t.cfg = s.cfg := only .cfg cfg
  exact ⟨(only .regime regime).trans h.regime, cfg ▸ (congrArg Channel.target (only .damper damper)).trans h.damper,
    cfg ▸ (congrArg Channel.target (only .blower blower)).trans h.blower⟩

/-- The regime SAFE with its codes handed as ordinary targets (R139). -/
def takeSafeCodes (s : State) : State :=
  ({ s with regime := .safe } : State).takeTargets s.cfg.mix.safeDamper s.cfg.mix.safeBlower

theorem takeSafeCodes_only (s : State) : Only (.regime :: rampParts) s s.takeSafeCodes :=
  (s.setRegime_only .safe).append (takeTargets_only _ _ _)

theorem takeSafeCodes_notes (s : State) : Notes rampNotes s s.takeSafeCodes :=
  Notes.seq (t := { s with regime := .safe }) (Notes.plain rfl rfl rfl) (takeTargets_notes _ _ _) (List.nil_subset _)
    (List.Subset.refl _)

theorem takeSafeCodes_safe (inlet : s.startup.role = .inlet) : SafeCodes s.takeSafeCodes := by
  obtain ⟨damper, blower⟩ :=
    takeTargets_targets { s with regime := .safe } s.cfg.mix.safeDamper s.cfg.mix.safeBlower inlet
  have cfg : s.takeSafeCodes.cfg = s.cfg := s.takeSafeCodes_only .cfg (by decide)
  have regime : s.takeSafeCodes.regime = .safe := takeTargets_only { s with regime := .safe } _ _ .regime (by decide)
  exact ⟨regime, cfg ▸ (congrArg Channel.target damper).trans (Channel.take_target _ _ _),
    cfg ▸ (congrArg Channel.target blower).trans (Channel.take_target _ _ _)⟩

theorem safeMembers_only (s : State) (q : SafeSet) (r : Regime) :
    Only [.safeSet, .regime] s { s with safe := q, regime := r } := by
  intro p hp
  cases p <;> first | rfl | exact ⟨rfl, rfl⟩ | exact ⟨rfl, rfl, rfl⟩ | exact absurd (by decide) hp

theorem nonempty_of_force (q : SafeSet) : ({ q with force := true } : SafeSet).nonempty = true :=
  SafeSet.nonempty_iff.mpr (.inl rfl)

/-- The FORCE member joins a set at an INLET in SAFE (R101, R102). -/
theorem setForceMember_joins (works : s.listWorks = true) (safe : SafeCodes s) :
    Only [.safeSet, .regime, .damper, .blower, .settle, .counters, .flagBits, .alert] s (s.setForceMember true) ∧
    SafeCodes (s.setForceMember true) ∧ (s.setForceMember true).safe = { s.safe with force := true } ∧
    (s.safe.nonempty = false → (s.setForceMember true).flag .safeActive = true) := by
  have inlet := (s.listWorks_iff.mp works).1
  have station := (s.listWorks_iff.mp works).2
  let q : SafeSet := { s.safe with force := true }
  have full : q.nonempty = true := nonempty_of_force s.safe
  have handed : SafeReasonHanded q s (s.setForceMember true) := s.setSafe_handed q inlet
  have cfg : (s.setForceMember true).cfg = s.cfg := s.setSafe_only q .cfg (by decide)
  have set := handed.set inlet station
  cases before : s.safe.nonempty with
  | false =>
    obtain ⟨flag, regime, damper, blower⟩ := handed.entered inlet station before full
    have entered := s.safeMembers_only q .safe
    refine ⟨?_, ⟨regime, cfg ▸ damper, cfg ▸ blower⟩, set, fun _ => flag⟩
    rw [show s.setForceMember true = _ from setSafe_enters works before full]
    exact ((entered.mono (by decide)).trans ((writeFlag_only _ _ _).mono (by decide))).trans
      ((applySafePosition_only _).mono (by decide))
  | true =>
    have same : s.setForceMember true = { s with safe := q } := setSafe_inside works (before.trans full.symm)
    have kept : Only [.safeSet, .regime] s { s with safe := q } := s.safeMembers_only q s.regime
    rw [same]
    exact ⟨kept.mono (by decide), ⟨safe.regime, safe.damper, safe.blower⟩, rfl, nofun⟩

/-- A switch that is active enters its local entry in JOINING (R110). -/
def joinSwitch (s : State) (active : Bool) (source : Fin 16) (r : DemandRegime) (level : Nat) : State :=
  if active then s.insertLocal source r level else s

theorem joinSwitch_only (s : State) (active : Bool) (source : Fin 16) (r : DemandRegime) (level : Nat) :
    Only entryParts s (s.joinSwitch active source r level) := Only.ite (insertLocal_only _ _ _ _) (Only.refl _ s)

theorem joinSwitch_notes (s : State) (active : Bool) (source : Fin 16) (r : DemandRegime) (level : Nat) :
    Notes entryNotes s (s.joinSwitch active source r level) := Notes.ite (insertLocal_notes _ _ _ _) (Notes.refl _ s)

theorem joinSwitch_demands (works : s.listWorks = true) (active : Bool) {source : Fin 16} (r : DemandRegime)
    (level : Nat) (room : s.demands.entries.length < 16) (free : s.demands.holds s.startup.own source = false) :
    (s.joinSwitch active source r level).demands =
      if active then s.demands.insert (localEntry s source r level) else s.demands := by
  unfold joinSwitch
  split
  · exact ((s.insertLocal_raised source r level works).room (DemandList.holds_eq_false.mp free) room).1
  · rfl

theorem listWorks_of_only {ps : List Part} (only : Only ps s t) (works : s.listWorks = true)
    (role : Part.role ∉ ps := by decide) (station : Part.station ∉ ps := by decide) : t.listWorks = true := by
  obtain ⟨inlet, running⟩ := s.listWorks_iff.mp works
  exact t.listWorks_iff.mpr ⟨(only .role role).trans inlet, (only .station station).trans_ne running⟩

/-- The safe codes taken, and a force request that holds entered in the set (R110). -/
def forceJoins (s : State) : State := if s.forceRequest then s.takeSafeCodes.setForceMember true else s.takeSafeCodes

/-- What the safe logic of an INLET reaches at the entry to JOINING. -/
abbrev safeJoinParts : List Part := [.safeSet, .regime, .damper, .blower, .settle, .counters, .flagBits, .alert]

theorem forceJoins_joins (works : s.listWorks = true) : Only safeJoinParts s s.forceJoins ∧
    Notes safeNotes s s.forceJoins ∧ SafeCodes s.forceJoins ∧
    s.forceJoins.safe = (if s.forceRequest then { s.safe with force := true } else s.safe) ∧
    (s.forceRequest = true → s.safe.nonempty = false → s.forceJoins.flag .safeActive = true) := by
  obtain ⟨inlet, station⟩ := s.listWorks_iff.mp works
  have only := s.takeSafeCodes_only
  have codes := takeSafeCodes_safe inlet
  have set : s.takeSafeCodes.safe = s.safe := only .safeSet (by decide)
  have works : s.takeSafeCodes.listWorks = true := listWorks_of_only only works
  unfold forceJoins
  cases s.forceRequest with
  | true =>
    obtain ⟨joins, safe, member, flag⟩ := setForceMember_joins works codes
    rw [set] at member flag
    exact ⟨only.seq joins (by decide) (by decide),
      s.takeSafeCodes_notes.seq (s.takeSafeCodes.setSafe_notes _) (by decide) (List.Subset.refl _), safe, member,
      fun _ => flag⟩
  | false => exact ⟨only.mono (by decide), s.takeSafeCodes_notes.mono (by decide), codes, set, nofun⟩

/-- An INLET as it enters JOINING, step by step (R110). -/
theorem inletJoins_eq (works : s.listWorks = true) (joining : s.startup.station = .joining) : s.inletJoins =
    (s.forceJoins.joinSwitch s.recircSwitch 2 .recirc s.cfg.driverLevel).joinSwitch s.flushSwitch 3 .flush
      s.cfg.driverLevel := by
  obtain ⟨only, -, codes, -⟩ := forceJoins_joins works
  let v := s.forceJoins.joinSwitch s.recircSwitch 2 .recirc s.cfg.driverLevel
  have switched := s.forceJoins.joinSwitch_only s.recircSwitch 2 .recirc s.cfg.driverLevel
  have station : s.forceJoins.startup.station = .joining := (only .station (by decide)).trans joining
  have first : v = if s.recircSwitch then s.forceJoins.raiseLocal 2 .recirc s.cfg.driverLevel else s.forceJoins := by
    rw [raiseLocal_joining station codes.regime]
    rfl
  have second : v.raiseLocal 3 .flush s.cfg.driverLevel = v.insertLocal 3 .flush s.cfg.driverLevel :=
    raiseLocal_joining ((switched .station (by decide)).trans station) (codes.of_only switched).regime _ _ _
  show _ = if s.flushSwitch then v.insertLocal 3 .flush s.cfg.driverLevel else v
  rw [← second, first]
  rfl

/-- On an empty list active switches enter at once, recirculation first (R110). -/
theorem joinSwitches_demands (works : s.listWorks = true) (empty : s.demands.entries = []) (recirc flush : Bool)
    (level : Nat) : ((s.joinSwitch recirc 2 .recirc level).joinSwitch flush 3 .flush level).demands =
      (let first := if recirc then s.demands.insert (localEntry s 2 .recirc level) else s.demands
       if flush then first.insert (localEntry s 3 .flush level) else first) := by
  let v := s.joinSwitch recirc 2 .recirc level
  have only : Only entryParts s v := joinSwitch_only _ _ _ _ _
  obtain ⟨own, -⟩ : Part.straps.same s v := only .straps (by decide)
  have free (n : Fin 16) : s.demands.holds s.startup.own n = false :=
    DemandList.holds_eq_false.mpr (by rw [empty]; nofun)
  have first : v.demands = if recirc then s.demands.insert (localEntry s 2 .recirc level) else s.demands :=
    joinSwitch_demands works recirc .recirc level (by rw [empty]; decide) (free 2)
  have entry : localEntry v 3 .flush level = localEntry s 3 .flush level := by
    unfold localEntry
    rw [own]
  have room : v.demands.entries.length < 16 := by
    rw [first]
    split
    · rw [Act.length_insert, empty]
      decide
    · rw [empty]
      decide
  have vacant : v.demands.holds v.startup.own 3 = false := by
    rw [first, own]
    split
    · refine Bool.eq_false_iff.mpr fun holds => ?_
      rcases (DemandList.holds_insert _ _ _ _).mp holds with ⟨-, same⟩ | held
      · exact absurd same (nofun : (2 : Fin 16) ≠ 3)
      · exact absurd held (by rw [free]; decide)
    · exact free 3
  refine (joinSwitch_demands (listWorks_of_only only works) flush .flush level room vacant).trans ?_
  rw [entry, first]

theorem inletJoins_joins (works : s.listWorks = true) (joining : s.startup.station = .joining) :
    Only (.demands :: safeJoinParts) s s.inletJoins ∧ Notes (entryNotes ++ safeNotes) s s.inletJoins ∧
    SafeCodes s.inletJoins ∧
    s.inletJoins.safe = (if s.forceRequest then { s.safe with force := true } else s.safe) ∧
    (s.forceRequest = true → s.safe.nonempty = false → s.inletJoins.flag .safeActive = true) ∧
    (s.demands.entries = [] → s.inletJoins.demands =
      (let recirc := if s.recircSwitch then s.demands.insert (localEntry s 2 .recirc s.cfg.driverLevel) else s.demands
       if s.flushSwitch then recirc.insert (localEntry s 3 .flush s.cfg.driverLevel) else recirc)) := by
  obtain ⟨inlet, station⟩ := s.listWorks_iff.mp works
  obtain ⟨only, notes, codes, set, flag⟩ := forceJoins_joins works
  let v := s.forceJoins.joinSwitch s.recircSwitch 2 .recirc s.cfg.driverLevel
  have first : Only entryParts s.forceJoins v := joinSwitch_only _ _ _ _ _
  have second := v.joinSwitch_only s.flushSwitch 3 .flush s.cfg.driverLevel
  have firstNotes : Notes entryNotes s.forceJoins v := joinSwitch_notes _ _ _ _ _
  have switches := first.trans second
  have switchNotes := firstNotes.trans (v.joinSwitch_notes s.flushSwitch 3 .flush s.cfg.driverLevel)
  rw [inletJoins_eq works joining]
  refine ⟨only.seq switches (by decide) (by decide), notes.seq switchNotes (by simp) (by simp), codes.of_only switches,
    (switches .safeSet (by decide)).trans set, fun force empty => ?_, fun empty => ?_⟩
  · exact (switchNotes (.flag .safeActive) (by simp)).trans (flag force empty)
  · have demands : s.forceJoins.demands = s.demands := only .demands (by decide)
    obtain ⟨own, -⟩ : Part.straps.same s s.forceJoins := only .straps (by decide)
    refine (joinSwitches_demands (listWorks_of_only only works) (by rw [demands, empty]) _ _ _).trans ?_
    unfold localEntry
    rw [demands, own]

/-! ## The configuration and the blocks that start (R180, R183) -/

theorem takeConfiguration_only (s : State) (l : Loaded) :
    Only [.role, .cfg, .flagBits, .alert] s (s.takeConfiguration l) := by
  have taken : Only [.role, .cfg, .flagBits, .alert] s
      { s with startup := { s.startup with role := l.role }, cfg := l.cfg } := by
    intro p hp
    cases p <;> first | rfl | exact ⟨rfl, rfl⟩ | exact ⟨rfl, rfl, rfl⟩ | exact absurd (by decide) hp
  exact (taken.trans ((writeFlag_only _ _ _).mono (by decide))).trans ((writeFlag_only _ _ _).mono (by decide))

theorem takeConfiguration_notes (s : State) (l : Loaded) :
    Notes [.flag .configDefault, .flag .configAdjusted] s (s.takeConfiguration l) := by
  have taken : Notes [] s { s with startup := { s.startup with role := l.role }, cfg := l.cfg } :=
    Notes.plain rfl rfl rfl
  exact ((taken.mono (by simp)).trans ((writeFlag_notes _ _ _).mono (by simp))).trans
    ((writeFlag_notes _ _ _).mono (by simp))

theorem takeConfiguration_flags (s : State) (l : Loaded) :
    (s.takeConfiguration l).flag .configDefault = l.isDefault ∧
      (s.takeConfiguration l).flag .configAdjusted = l.adjusted :=
  ⟨(flag_writeFlag_ne _ _ (by decide)).trans (flag_writeFlag_same _ _ _), flag_writeFlag_same _ _ _⟩

/-- The parts that start with JOINING on every role. -/
abbrev startParts : List Part := [.station, .joining, .records, .sweep, .inputs, .source, .tracker, .lead,
  .accountingTimer, .statusTimer, .readingTimer]

theorem startBlocks_only (s : State) : Only startParts s s.startBlocks := by
  intro p hp
  cases p <;> first | rfl | exact ⟨rfl, rfl⟩ | exact ⟨rfl, rfl, rfl⟩ | exact absurd (by decide) hp

theorem startBlocks_notes (s : State) : Notes [] s s.startBlocks := Notes.plain rfl rfl rfl

/-- The blocks of the role after the blocks of every role. -/
def joined (s : State) : State := if s.startup.role = .inlet then s.inletJoins else s

theorem joined_kept (works : s.startup.role = .inlet → s.listWorks = true) (joining : s.startup.station = .joining) :
    Only (.demands :: safeJoinParts) s s.joined ∧ Notes (entryNotes ++ safeNotes) s s.joined := by
  unfold joined
  split
  · next inlet =>
    obtain ⟨only, notes, -⟩ := inletJoins_joins (works inlet) joining
    exact ⟨only, notes⟩
  · exact ⟨Only.refl _ s, Notes.refl _ s⟩

end State

/-- Settles O7: the configuration taken, the blocks started, the INLET by `State.inletJoins_joins`, STATUS queued. -/
theorem loadingCompleteEntersJoining : Obligations.LoadingCompleteEntersJoining := by
  intro image s loading l
  let c := s.takeConfiguration l
  let b := c.startBlocks
  let u := b.joined
  let p := u.post .status (statusFrame u)
  have run : exec (.loadingComplete image) s = .next p.chooseOffer := if_pos loading
  have works (inlet : b.startup.role = .inlet) : b.listWorks = true := b.listWorks_iff.mpr ⟨inlet, nofun⟩
  obtain ⟨joins, joinNotes⟩ := State.joined_kept works rfl
  have before : Only ([.role, .cfg, .flagBits, .alert] ++ State.startParts) s b :=
    (s.takeConfiguration_only l).append c.startBlocks_only
  have beforeNotes : Notes [.flag .configDefault, .flag .configAdjusted] s b :=
    (s.takeConfiguration_notes l).trans (c.startBlocks_notes.mono (by simp))
  have after : Only (.demands :: State.safeJoinParts ++ [.boxes, .counters, .flagBits, .alert] ++ [.offer]) b
      p.chooseOffer := (joins.append (u.post_only _ _)).append p.chooseOffer_only
  have afterNotes : Notes (entryNotes ++ safeNotes ++ postNotes .status) b p.chooseOffer :=
    (joinNotes.seq (u.post_notes _ _) (List.subset_append_left _ _) (List.subset_append_right _ _)).trans
      (p.chooseOffer_notes.mono (List.nil_subset _))
  have offered (f : Frame) (h : s.transmit.offer = some f) : p.chooseOffer.transmit.offer = some f := by
    have kept : p.transmit.offer = some f :=
      ((before .offer (by decide)).trans h) ▸ (joins.append (u.post_only .status (statusFrame u))) .offer (by decide)
    rw [p.chooseOffer_offer f kept]
    exact kept
  obtain ⟨isDefault, adjusted⟩ := s.takeConfiguration_flags l
  obtain ⟨-, force, -⟩ := State.conditions_outside after (nofun : Station.joining ≠ .loading)
    ((after .station (by decide)).trans_ne nofun) (by decide)
  have level := State.functionLevel_congr (s := b) (t := p.chooseOffer) (after .inputs (by decide))
    (after .cfg (by decide)) (after .role (by decide)) (after .station (by decide))
  obtain ⟨own, -⟩ : Part.straps.same s b := before .straps (by decide)
  have cfg : b.cfg = l.cfg := rfl
  obtain ⟨position, dwell⟩ : Part.sweep.same b p.chooseOffer := after .sweep (by decide)
  have records : p.chooseOffer.sequencer.records = tabulate (startedRecord l.cfg) := after .records (by decide)
  have inputs : p.chooseOffer.inputs = resetInputs s.pins := after .inputs (by decide)
  have choice := p.chooseOffer_only
  have posts : Only [.boxes, .counters, .flagBits, .alert] u p := u.post_only _ _
  have ends := posts.append choice
  refine ⟨_, run, after .station (by decide), after .role (by decide), after .cfg (by decide),
    (afterNotes (.flag .configDefault) (by simp)).trans isDefault,
    (afterNotes (.flag .configAdjusted) (by simp)).trans adjusted,
    (after .joining (by decide)).trans (congrArg some (congrArg (· * 100) (Nat.mul_one _))),
    after .accountingTimer (by decide), after .statusTimer (by decide), after .readingTimer (by decide),
    after .source (by decide), after .tracker (by decide), after .lead (by decide), position, dwell, fun i => ?_,
    fun i => ?_, ⟨_, (p.frames_chooseOffer _).trans (u.frames_post_status _), ?_, ?_⟩, fun inlet => ?_, fun other => ?_,
    offered, ?_, ?_⟩
  · have record : p.chooseOffer.sequencer.records[i] = startedRecord l.cfg i := records ▸ tabulate_get _ i
    rw [record]
    obtain ⟨value, seeded, burden, suspect⟩ := startedRecord_clear l.cfg i
    exact ⟨value, seeded, burden, suspect, startedRecord_quality l.cfg i, startedRecord_warming, startedRecord_absent⟩
  · rw [inputs, InputUnit.get_resetInputs]
    exact ⟨rfl, rfl⟩
  · exact (statusFrame_fields u).1
  · obtain ⟨-, -, station, -⟩ := statusFrame_fields u
    obtain ⟨same, -⟩ : Part.straps.same b u := joins .straps (by decide)
    exact station.trans (same.trans own)
  · have form : u = b.inletJoins := if_pos inlet
    obtain ⟨-, -, codes, set, flag, demands⟩ := State.inletJoins_joins (works inlet) rfl
    rw [← form] at codes set flag demands
    obtain ⟨regime, damper, blower⟩ := codes.of_only ends
    have cfg' : p.chooseOffer.cfg = l.cfg := after .cfg (by decide)
    rw [cfg'] at damper blower
    have recirc : b.recircSwitch = p.chooseOffer.recircSwitch := (level _).symm
    have flush : b.flushSwitch = p.chooseOffer.flushSwitch := (level _).symm
    refine ⟨regime, damper, blower, ?_, fun forced empty => ?_, fun empty => ?_⟩
    · rw [force]
      exact (ends .safeSet (by decide)).trans set
    · exact (p.flag_chooseOffer _).trans ((u.post_notes _ _ (.flag .safeActive) (by simp)).trans
        (flag (force.symm.trans forced) empty))
    · refine (ends .demands (by decide)).trans ((demands empty).trans ?_)
      rw [recirc, flush]
      unfold localEntry
      rw [own]
      rfl
  · have same : u = b := if_neg other
    rw [same] at ends
    exact ⟨ends .safeSet (by decide), ends .demands (by decide), ends .regime (by decide),
      State.ramps_ext (ends .damper (by decide)) (ends .blower (by decide)) (ends .settle (by decide))⟩
  · exact before.seq after (by decide) (by decide)
  · exact beforeNotes.seq afterNotes (by decide) (by decide)

end Sys2Proof.Machine
end

section
/-! PROOFS. The role and the configuration that LOADING decides (O5, R180, R181). -/

namespace Sys2Proof.Machine

open Sys2Proof

/-! ## Claims about fields -/

/-- Validation does with a field what its claim says, and marks it exactly when it is out of range. -/
structure FieldClaim.Met (x : FieldClaim) (changed : Bool) : Prop where
  keeps : x.inRange → x.taken
  corrects : ¬ x.inRange → x.corrected
  marks : changed = true ↔ ¬ x.inRange

/-- Every claim of a list is met, and the mark says whether one of the fields is out of range. -/
structure ClaimsMet (l : List FieldClaim) (changed : Bool) : Prop where
  each : ∀ x ∈ l, (x.inRange → x.taken) ∧ (¬ x.inRange → x.corrected)
  marks : changed = true ↔ ∃ x ∈ l, ¬ x.inRange

namespace ClaimsMet

variable {x : FieldClaim} {l m : List FieldClaim} {b c : Bool}

theorem nil : ClaimsMet [] false := ⟨nofun, by simp⟩

theorem cons (first : x.Met b) (others : ClaimsMet l c) : ClaimsMet (x :: l) (b || c) where
  each := List.forall_mem_cons.mpr ⟨⟨first.keeps, first.corrects⟩, others.each⟩
  marks := by simp only [Bool.or_eq_true, first.marks, others.marks, List.mem_cons, exists_eq_or_imp]

theorem append (first : ClaimsMet l b) (second : ClaimsMet m c) : ClaimsMet (l ++ m) (b || c) where
  each := List.forall_mem_append.mpr ⟨first.each, second.each⟩
  marks := by simp only [Bool.or_eq_true, first.marks, second.marks, List.mem_append, or_and_right, exists_or]

theorem marked (h : ClaimsMet l b) (same : b = c) : ClaimsMet l c := same ▸ h

/-- The claims about every entry of a table. -/
theorem table {α : Type} {n : Nat} {f : Fin n → List FieldClaim} {g : Fin n → Checked α}
    (each : ∀ i, ClaimsMet (f i) (g i).changed) :
    ClaimsMet ((List.finRange n).flatMap f) ((tabulate g).toList.any (·.changed)) where
  each := List.forall_mem_flatMap.mpr fun i _ => (each i).each
  marks := by
    have marked : (tabulate g).toList.any (·.changed) = true ↔ ∃ i, (g i).changed = true := by
      simp [tabulate]
    simp only [marked, (each _).marks, List.mem_flatMap, List.mem_finRange, true_and]
    exact ⟨fun ⟨i, x, among, out⟩ => ⟨x, ⟨i, among⟩, out⟩, fun ⟨x, ⟨i, among⟩, out⟩ => ⟨i, x, among, out⟩⟩

end ClaimsMet

/-! ## One field (R180) -/

theorem checkNum_met (lo hi raw : Nat) :
    (FieldClaim.number lo hi raw (checkNum lo hi raw).val).Met (checkNum lo hi raw).changed := by
  refine ⟨fun ⟨low, high⟩ => ?_, fun _ => rfl, ?_⟩
  · show max lo (min hi raw) = raw
    omega
  · simp only [checkNum, FieldClaim.number, decide_eq_true_iff]
    omega

theorem checkInt_met (lo hi raw : Int) :
    (FieldClaim.signed lo hi raw (checkInt lo hi raw).val).Met (checkInt lo hi raw).changed := by
  refine ⟨fun ⟨low, high⟩ => ?_, fun _ => rfl, ?_⟩
  · show max lo (min hi raw) = raw
    omega
  · simp only [checkInt, FieldClaim.signed, decide_eq_true_iff]
    omega

theorem checkEnum_met {α : Type} (default : α) (code : Option α) :
    (FieldClaim.listed code (checkEnum default code).val default).Met (checkEnum default code).changed := by
  cases code with
  | none => exact ⟨nofun, fun _ => rfl, iff_of_true rfl nofun⟩
  | some a => exact ⟨fun _ => rfl, fun out => absurd rfl out, iff_of_false Bool.false_ne_true (not_not_intro rfl)⟩

theorem checkNum_metIf {read : Prop} (holds : read) (lo hi raw : Nat) :
    (FieldClaim.numberIf read lo hi raw (checkNum lo hi raw).val).Met (checkNum lo hi raw).changed := by
  obtain ⟨keeps, corrects, marks⟩ := checkNum_met lo hi raw
  refine ⟨fun inside _ => keeps (inside holds), fun _ => rfl, marks.trans (not_congr ⟨fun inside _ => inside, ?_⟩)⟩
  exact fun inside => inside holds

/-- A field that is not read is in range. -/
theorem numberIf_unread {read : Prop} (fails : ¬ read) (lo hi raw value : Nat) :
    (FieldClaim.numberIf read lo hi raw value).Met false :=
  ⟨fun _ holds => absurd holds fails, fun out => absurd (fun holds => absurd holds fails) out,
    iff_of_false Bool.false_ne_true (not_not_intro fun holds => absurd holds fails)⟩

theorem byteAt_lt (img : List Byte) (i : Nat) : byteAt img i < 256 := (img.getD i 0xFF#8).isLt

/-! ## Slots and inputs -/

theorem checkSlot_met (img : List Byte) (role : Role) (c : Cfg) (i : Fin 16)
    (slot : c.slots[i] = (checkSlot img role i.val).val) :
    ClaimsMet (slotFields img role c i) (checkSlot img role i.val).changed := by
  unfold slotFields
  rw [slot]
  refine ClaimsMet.marked (.cons (checkEnum_met _ _) (.cons (checkEnum_met _ _) (.cons (checkEnum_met _ _)
    (.cons (checkInt_met _ _ _) (.cons (checkInt_met _ _ _) (.cons (checkNum_met _ _ _) (.cons (checkNum_met _ _ _)
      (.cons (checkNum_met _ _ _) (.cons (checkEnum_met _ _) (.cons (checkNum_met _ _ _) .nil)))))))))) ?_
  simp only [checkSlot, Bool.or_assoc, Bool.or_false]

theorem checkInput_met (img : List Byte) (c : Cfg) (i : Fin 4) (input : c.inputs[i] = (checkInput img i.val).val) :
    ClaimsMet (inputFields img c i) (checkInput img i.val).changed := by
  unfold inputFields
  rw [input]
  refine ClaimsMet.marked (.cons (checkEnum_met _ _) (.cons (checkEnum_met _ _) (.cons (checkNum_met _ _ _) .nil))) ?_
  simp only [checkInput, Bool.or_assoc, Bool.or_false]

/-! ## The detector and the timeline -/

/-- An empty species mask becomes both kinds (R72). -/
theorem mask_met (mask : Species) : (FieldClaim.mk (Species.nonempty mask = true)
    ((if !mask.pm && !mask.no2 then ⟨true, true⟩ else mask) = mask)
    ((if !mask.pm && !mask.no2 then ⟨true, true⟩ else mask) = (⟨true, true⟩ : Species))).Met
      (!mask.pm && !mask.no2) := by
  obtain ⟨pm, no2⟩ := mask
  cases pm <;> cases no2 <;> constructor <;> decide

theorem plumeFields_met (img : List Byte) (c : Cfg) (detector : c.detector = (checkDetector img).val)
    (timeline : c.timeline = (checkTimeline img).val) :
    ClaimsMet (plumeFields img c) ((checkDetector img).changed || (checkTimeline img).changed) := by
  unfold plumeFields
  rw [detector, timeline]
  refine ClaimsMet.marked (.cons (checkNum_met _ _ _) (.cons (checkNum_met _ _ _) (.cons (checkNum_met _ _ _)
    (.cons (checkNum_met _ _ _) (.cons (mask_met _) (.cons (checkNum_met _ _ _) (.cons (checkNum_met _ _ _)
      (.cons (checkNum_met _ _ _) (.cons (checkNum_met _ _ _) (.cons (checkNum_met _ _ _) (.cons (checkNum_met _ _ _)
        (.cons (checkNum_met _ _ _) .nil)))))))))))) ?_
  simp only [checkDetector, checkTimeline, Bool.or_assoc, Bool.or_false]

/-! ## The ramps and the mix law -/

/-- A breakpoint table that fails one condition becomes the default table (R114). -/
theorem table_met (table : BreakTable) : (FieldClaim.mk (BreakTable.valid table = true)
    ((if BreakTable.valid table then table else defaultTable) = table)
    ((if BreakTable.valid table then table else defaultTable) = defaultTable)).Met (!BreakTable.valid table) := by
  cases valid : BreakTable.valid table with
  | true => exact ⟨fun _ => rfl, fun out => absurd rfl out, iff_of_false nofun (not_not_intro rfl)⟩
  | false => exact ⟨nofun, fun _ => rfl, iff_of_true rfl nofun⟩

/-- The largest blower code is brought up to the smallest one (R114). -/
theorem blowerMax_met (low raw : Nat) : (FieldClaim.number low 1023 raw (max low (checkNum 0 1023 raw).val)).Met
    ((checkNum 0 1023 raw).changed || decide ((checkNum 0 1023 raw).val < low)) := by
  simp only [checkNum, Nat.zero_le, Nat.max_eq_right]
  refine ⟨fun ⟨above, below⟩ => ?_, fun _ => rfl, ?_⟩
  · show max low (min 1023 raw) = raw
    omega
  · simp only [FieldClaim.number, Bool.or_eq_true, decide_eq_true_iff]
    omega

theorem mixFields_met (img : List Byte) (role : Role) (c : Cfg)
    (damper : c.damper = (checkRamp img 327 (factoryDefault role).damper).val)
    (blower : c.blower = (checkRamp img 330 (factoryDefault role).blower).val) (mix : c.mix = (checkMix img).val) :
    ClaimsMet (mixFields img c) ((checkRamp img 327 (factoryDefault role).damper).changed ||
      ((checkRamp img 330 (factoryDefault role).blower).changed || (checkMix img).changed)) := by
  unfold mixFields
  rw [damper, blower, mix]
  refine ClaimsMet.marked (.cons (checkEnum_met _ _) (.cons (checkNum_met _ _ _) (.cons (checkNum_met _ _ _)
    (.cons (checkEnum_met _ _) (.cons (checkNum_met _ _ _) (.cons (checkNum_met _ _ _) (.cons (checkNum_met _ _ _)
    (.cons (checkNum_met _ _ _) (.cons (checkNum_met _ _ _) (.cons (checkNum_met _ _ _) (.cons (checkNum_met _ _ _)
    (.cons (table_met _) (.cons (checkNum_met _ _ _) (.cons (checkNum_met _ _ _) (.cons (checkNum_met _ _ _)
    (.cons (blowerMax_met _ _) (.cons (checkNum_met _ _ _) (.cons (checkNum_met _ _ _) (.cons (checkNum_met _ _ _)
    (.cons (checkNum_met _ _ _) .nil)))))))))))))))))))) ?_
  simp only [checkRamp, checkMix, Bool.or_assoc, Bool.or_false]

/-! ## The head and the class map -/

theorem staleTime_met (raw : Nat) : (FieldClaim.mk (5 ≤ raw ∧ raw ≤ 100)
    ((checkNum 5 100 raw).val * 100 = raw * 100)
    ((checkNum 5 100 raw).val * 100 = max 5 (min 100 raw) * 100)).Met (checkNum 5 100 raw).changed := by
  obtain ⟨keeps, -, marks⟩ := checkNum_met 5 100 raw
  exact ⟨fun inside => congrArg (· * 100) (keeps inside), fun _ => rfl, marks⟩

theorem checkFeedback_met (raw : Nat) : (FieldClaim.mk (raw ≤ 16)
    ((raw < 16 → ∃ i : Fin 16, i.val = raw ∧ (checkFeedback raw).val = some i) ∧
      (raw = 16 → (checkFeedback raw).val = none)) ((checkFeedback raw).val = none)).Met
    (checkFeedback raw).changed := by
  by_cases low : raw < 16
  · have slot : checkFeedback raw = ⟨some ⟨raw, low⟩, false⟩ := dif_pos low
    rw [slot]
    exact ⟨fun _ => ⟨fun _ => ⟨⟨raw, low⟩, rfl, rfl⟩, fun is => absurd low (by omega)⟩, fun out => absurd low.le out,
      iff_of_false nofun (not_not_intro low.le)⟩
  · have none : checkFeedback raw = ⟨none, decide (raw ≠ 16)⟩ := dif_neg low
    rw [none]
    refine ⟨fun _ => ⟨fun less => absurd less low, fun _ => rfl⟩, fun _ => rfl, ?_⟩
    show decide (raw ≠ 16) = true ↔ ¬ raw ≤ 16
    rw [decide_eq_true_iff]
    omega

/-! ## The rules -/

theorem actionOf_isSome (img : List Byte) (i : Nat) : (actionOf img i).isSome = true ↔
    byteAt img i / 32 % 4 = 0 ∨ (byteAt img i / 32 % 4 = 1 ∧
      (demandRegimeOfCode (byteAt img (i + 1) / 8 % 4)).isSome = true) ∨ byteAt img i / 32 % 4 = 2 := by
  unfold actionOf
  split <;> simp_all

/-- Every choice of the rule entry is a listed one (R152). -/
def RuleRead (img : List Byte) (n : Nat) : Prop :=
  (operandOf (byteAt img (384 + 8 * n + 1) % 8) (byteAt img (384 + 8 * n + 2))).isSome = true ∧
  (comparandOf img (384 + 8 * n)).isSome = true ∧ (relationOfCode (byteAt img (384 + 8 * n) / 2 % 8)).isSome = true ∧
  (byteAt img (384 + 8 * n) / 32 % 4 = 0 ∨ (byteAt img (384 + 8 * n) / 32 % 4 = 1 ∧
    (demandRegimeOfCode (byteAt img (384 + 8 * n + 1) / 8 % 4)).isSome = true) ∨ byteAt img (384 + 8 * n) / 32 % 4 = 2)

/-- A rule with a choice that is none of R152's is taken as disabled (log 29). -/
theorem checkRule_unread {img : List Byte} {n : Nat} (unread : ¬ RuleRead img n) :
    checkRule img n = { val := disabledRule, changed := true } := by
  unfold checkRule
  dsimp only
  split
  · next a c r act operand comparand relation action =>
    refine absurd ⟨?_, ?_, ?_, (actionOf_isSome img _).mp ?_⟩ unread
    · rw [operand]; rfl
    · rw [comparand]; rfl
    · rw [relation]; rfl
    · rw [action]; rfl
  · rfl

/-- A rule whose choices are listed ones, its action as its code has it. -/
theorem checkRule_read {img : List Byte} {n : Nat} {a : Operand} {c : Comparand} {r : Relation}
    {act : Checked RuleAction}
    (operand : operandOf (byteAt img (384 + 8 * n + 1) % 8) (byteAt img (384 + 8 * n + 2)) = some a)
    (comparand : comparandOf img (384 + 8 * n) = some c)
    (relation : relationOfCode (byteAt img (384 + 8 * n) / 2 % 8) = some r)
    (action : actionOf img (384 + 8 * n) = some act) :
    (checkRule img n).val =
      { enabled := bitAt img (384 + 8 * n) 0, operandA := a, comparand := c, relation := r
        hysteresis := (checkNum 0 1000 (fieldAt img (384 + 8 * n + 5) 2)).val
        fireCount := (checkNum 1 15 (byteAt img (384 + 8 * n + 7) % 16)).val
        releaseCount := (checkNum 1 15 (byteAt img (384 + 8 * n + 7) / 16)).val, action := act.val } ∧
    (checkRule img n).changed = ((checkNum 0 1000 (fieldAt img (384 + 8 * n + 5) 2)).changed ||
      (checkNum 1 15 (byteAt img (384 + 8 * n + 7) % 16)).changed ||
        (checkNum 1 15 (byteAt img (384 + 8 * n + 7) / 16)).changed || act.changed) := by
  unfold checkRule
  dsimp only
  rw [operand, comparand, relation, action]
  exact ⟨rfl, rfl⟩

theorem actionOf_none {img : List Byte} {i : Nat} (code : byteAt img i / 32 % 4 = 0) :
    actionOf img i = some ⟨.none, false⟩ := by
  unfold actionOf
  rw [code]
  rfl

theorem actionOf_safe {img : List Byte} {i : Nat} (code : byteAt img i / 32 % 4 = 2) :
    actionOf img i = some ⟨.safe, false⟩ := by
  unfold actionOf
  rw [code]
  rfl

theorem actionOf_demand {img : List Byte} {i : Nat} {r : DemandRegime} (code : byteAt img i / 32 % 4 = 1)
    (regime : demandRegimeOfCode (byteAt img (i + 1) / 8 % 4) = some r) : actionOf img i =
      some ⟨.demand r (checkNum 1 7 (byteAt img (i + 1) / 32)).val,
        (checkNum 1 7 (byteAt img (i + 1) / 32)).changed⟩ := by
  unfold actionOf
  rw [code]
  dsimp only
  rw [regime]
  rfl

theorem checkRule_met (img : List Byte) (c : Cfg) (n : Fin 8) (rule : c.rules[n] = (checkRule img n.val).val) :
    ClaimsMet (ruleFields img c n) (checkRule img n.val).changed := by
  unfold ruleFields
  rw [rule]
  by_cases read : RuleRead img n.val
  · obtain ⟨a, operand⟩ := Option.isSome_iff_exists.mp read.1
    obtain ⟨cmp, comparand⟩ := Option.isSome_iff_exists.mp read.2.1
    obtain ⟨r, relation⟩ := Option.isSome_iff_exists.mp read.2.2.1
    have choices {claim : FieldClaim} (range : claim.inRange = RuleRead img n.val) (taken : claim.taken) :
        claim.Met false :=
      ⟨fun _ => taken, fun out => absurd (range ▸ read) out, iff_of_false nofun (not_not_intro (range ▸ read))⟩
    rcases read.2.2.2 with none | ⟨demand, some⟩ | safe
    · have other {k : Nat} (ne : 0 ≠ k) : ¬ byteAt img (384 + 8 * n.val) / 32 % 4 = k :=
        fun is => ne (none.symm.trans is)
      obtain ⟨val, changed⟩ := checkRule_read operand comparand relation (actionOf_none none)
      rw [val, changed]
      refine ClaimsMet.marked (.cons (choices rfl ⟨rfl, operand, comparand, relation, fun _ => rfl, ?_, ?_⟩)
        (.cons (checkNum_metIf read _ _ _) (.cons (checkNum_metIf read _ _ _) (.cons (checkNum_metIf read _ _ _)
          (.cons (numberIf_unread (fun h => other (by decide) h.2) _ _ _ _) .nil))))) ?_
      · exact fun is => absurd is (other (by decide))
      · exact fun _ is => absurd is (other (by decide))
      · simp only [Bool.or_assoc, Bool.or_false, Bool.false_or]
    · have other {k : Nat} (ne : 1 ≠ k) : ¬ byteAt img (384 + 8 * n.val) / 32 % 4 = k :=
        fun is => ne (demand.symm.trans is)
      obtain ⟨g, regime⟩ := Option.isSome_iff_exists.mp some
      obtain ⟨val, changed⟩ := checkRule_read operand comparand relation (actionOf_demand demand regime)
      rw [val, changed]
      refine ClaimsMet.marked (.cons (choices rfl ⟨rfl, operand, comparand, relation, ?_, ?_, ?_⟩)
        (.cons (checkNum_metIf read _ _ _) (.cons (checkNum_metIf read _ _ _) (.cons (checkNum_metIf read _ _ _)
          (.cons (checkNum_metIf ⟨read, demand⟩ _ _ _) .nil))))) ?_
      · exact fun is => absurd is (other (by decide))
      · exact fun is => absurd is (other (by decide))
      · exact fun h _ same => ⟨_, congrArg (RuleAction.demand · _) (Option.some.inj (regime.symm.trans same))⟩
      · simp only [Bool.or_assoc, Bool.or_false, Bool.false_or]
    · have other {k : Nat} (ne : 2 ≠ k) : ¬ byteAt img (384 + 8 * n.val) / 32 % 4 = k :=
        fun is => ne (safe.symm.trans is)
      obtain ⟨val, changed⟩ := checkRule_read operand comparand relation (actionOf_safe safe)
      rw [val, changed]
      refine ClaimsMet.marked (.cons (choices rfl ⟨rfl, operand, comparand, relation, ?_, fun _ => rfl, ?_⟩)
        (.cons (checkNum_metIf read _ _ _) (.cons (checkNum_metIf read _ _ _) (.cons (checkNum_metIf read _ _ _)
          (.cons (numberIf_unread (fun h => other (by decide) h.2) _ _ _ _) .nil))))) ?_
      · exact fun is => absurd is (other (by decide))
      · exact fun _ is => absurd is (other (by decide))
      · simp only [Bool.or_assoc, Bool.or_false, Bool.false_or]
  · rw [checkRule_unread read]
    refine ClaimsMet.marked (.cons (b := true) ⟨fun holds => absurd holds read, fun _ => rfl, iff_of_true rfl read⟩
      (.cons (numberIf_unread read _ _ _ _) (.cons (numberIf_unread read _ _ _ _)
        (.cons (numberIf_unread read _ _ _ _) (.cons (numberIf_unread (fun h => read h.1) _ _ _ _) .nil))))) rfl

/-! ## The whole image -/

theorem imageFields_met (img : List Byte) (role : Role) :
    ClaimsMet (imageFields img role (validateImage img role).val) (validateImage img role).changed := by
  let c := (validateImage img role).val
  have head : ClaimsMet (headFields img c) _ := .cons (checkNum_met _ _ _) (.cons (staleTime_met _)
    (.cons (checkNum_met _ _ _) (.cons (checkNum_met _ _ _) (.cons (checkNum_met _ _ _) (.cons (checkNum_met _ _ _)
    (.cons (checkNum_met _ _ _) (.cons (checkNum_met _ _ _) (.cons (checkNum_met _ _ _) (.cons (checkNum_met _ _ _)
    (.cons (checkNum_met _ _ _) (.cons (checkFeedback_met _) (.cons (checkNum_met _ _ _) (.cons (checkNum_met _ _ _)
    (.cons (checkNum_met _ _ _) (.cons (checkNum_met _ _ _) .nil)))))))))))))))
  have slots : ClaimsMet ((List.finRange 16).flatMap (slotFields img role c)) _ :=
    .table fun i => checkSlot_met img role c i ((mapVector_get _ _ i).trans (congrArg Checked.val (tabulate_get _ i)))
  have inputs : ClaimsMet ((List.finRange 4).flatMap (inputFields img c)) _ :=
    .table fun i => checkInput_met img c i ((mapVector_get _ _ i).trans (congrArg Checked.val (tabulate_get _ i)))
  have rules : ClaimsMet ((List.finRange 8).flatMap (ruleFields img c)) _ :=
    .table fun i => checkRule_met img c i ((mapVector_get _ _ i).trans (congrArg Checked.val (tabulate_get _ i)))
  have classes : ClaimsMet ((List.finRange 25).flatMap fun i : Fin 25 => [.listed
      (classOfCode (byteAt img (496 + i.val / 4) / 4 ^ (i.val % 4) % 4)) c.classes[i] (defaultClass i)]) _ :=
    .table (g := fun i => checkClass img i.val) fun i => by
      have entry : c.classes[i] = (checkClass img i.val).val :=
        (mapVector_get _ _ i).trans (congrArg Checked.val (tabulate_get _ i))
      rw [entry]
      exact ClaimsMet.marked (.cons (checkEnum_met _ _) .nil) (Bool.or_false _)
  rw [← List.map_eq_flatMap] at classes
  refine ClaimsMet.marked ((((((head.append slots).append inputs).append (plumeFields_met img c rfl rfl)).append
    (mixFields_met img role c rfl rfl rfl)).append rules).append classes) ?_
  simp only [validateImage, Bool.or_assoc, Bool.or_false]

theorem validateImage_slot (img : List Byte) (role : Role) (i : Fin 16) :
    (validateImage img role).val.slots[i] = (checkSlot img role i.val).val :=
  (mapVector_get _ _ i).trans (congrArg Checked.val (tabulate_get _ i))

theorem acceptField_value {a b : Nat} (high : a < 8) (low : b < 256) :
    (BitVec.ofNat 11 (a * 256 + b)).toNat = a * 256 + b :=
  (BitVec.toNat_ofNat _ _).trans (Nat.mod_eq_of_lt (by omega))

theorem plainFieldsTaken (img : List Byte) (role : Role) : PlainFieldsTaken img (validateImage img role).val := by
  have slot := validateImage_slot img role
  have entry (n : Fin 16) : (validateImage img role).val.accept[n] = acceptAt img n.val := tabulate_get _ n
  have bit (i : Fin 16) (b : Nat) : bitAt img (32 + 16 * i.val + 15) b = bitAt img (47 + 16 * i.val) b :=
    congrArg (bitAt img · b) (Nat.add_right_comm _ _ _)
  refine ⟨rfl, rfl, rfl, Nat.mod_eq_of_lt (Nat.div_lt_of_lt_mul (byteAt_lt img 5)), fun i => ?_, fun i => ?_,
    fun i => ?_, fun n => tabulate_get _ n, fun n => ?_, fun n => ?_, fun n => ?_⟩
  · exact (congrArg SlotCfg.publish (slot i)).trans (bit i 0)
  · exact (congrArg SlotCfg.railCheck (slot i)).trans (bit i 1)
  · exact (congrArg SlotCfg.plumeWatch (slot i)).trans (bit i 2)
  · rw [entry]
    rfl
  · rw [entry, show 449 + 3 * n.val = 448 + 3 * n.val + 1 by omega]
    exact acceptField_value (Nat.mod_lt _ (by decide)) (byteAt_lt _ _)
  · rw [entry, show 450 + 3 * n.val = 448 + 3 * n.val + 2 by omega]
    exact acceptField_value (Nat.mod_lt _ (by decide)) (byteAt_lt _ _)

theorem loadImage_default {image : List Byte} (invalid : imageValid (imageBytes image) = false) (strap : Nat) :
    loadImage strap image = { role := roleOfStrap strap, cfg := factoryDefault (roleOfStrap strap), isDefault := true
                              adjusted := false } := if_neg (by rw [invalid]; decide)

theorem loadImage_valid {image : List Byte} (valid : imageValid (imageBytes image) = true) (strap : Nat) :
    loadImage strap image =
      { role := (roleOfValid strap (byteAt (imageBytes image) 3)).val
        cfg := (validateImage (imageBytes image) (roleOfValid strap (byteAt (imageBytes image) 3)).val).val
        isDefault := false
        adjusted := (roleOfValid strap (byteAt (imageBytes image) 3)).changed ||
          (validateImage (imageBytes image) (roleOfValid strap (byteAt (imageBytes image) 3)).val).changed } :=
  if_pos valid

/-- A role byte outside 1 to 3 gives CABIN and an adjustment (R180). -/
theorem roleOfValid_outside {byte : Nat} (outside : byte < 1 ∨ 3 < byte) : roleOfValid 3 byte = ⟨.cabin, true⟩ := by
  rcases outside with low | high
  · obtain rfl := Nat.lt_one_iff.mp low
    rfl
  · obtain ⟨k, rfl⟩ := Nat.exists_eq_add_of_le' high
    rfl

/-- The role is corrected only for strap 3 and a byte outside 1 to 3. -/
theorem roleOfValid_changed (strap : Fin 4) (byte : Nat) :
    (roleOfValid strap.val byte).changed = true ↔ strap = 3 ∧ (byte < 1 ∨ 3 < byte) := by
  by_cases outside : byte < 1 ∨ 3 < byte
  · match strap with
    | 0 | 1 | 2 => exact iff_of_false nofun nofun
    | 3 => exact iff_of_true (congrArg Checked.changed (roleOfValid_outside outside)) ⟨rfl, outside⟩
  · have inside : (roleOfValid strap.val byte).changed = false := by
      have low : 1 ≤ byte := by omega
      have high : byte ≤ 3 := by omega
      match strap with
      | 0 | 1 | 2 => rfl
      | 3 => interval_cases byte <;> rfl
    exact iff_of_false (by rw [inside]; decide) fun h => outside h.2

/-- Settles O5: the fields by `imageFields_met` and `plainFieldsTaken`, the role by the table of R180. -/
theorem loadingDecidesRoleAndConfiguration : Obligations.LoadingDecidesRoleAndConfiguration := by
  intro strap image l
  refine ⟨fun invalid => ?_, fun valid => ?_⟩
  · have form : l = _ := loadImage_default invalid strap.val
    rw [form]
    refine ⟨?_, rfl, rfl, rfl⟩
    match strap with
    | 0 | 1 | 2 | 3 => rfl
  · have form : l = _ := loadImage_valid valid strap.val
    have role : l.role = (roleOfValid strap.val (byteAt (imageBytes image) 3)).val := congrArg Loaded.role form
    obtain ⟨each, marks⟩ := imageFields_met (imageBytes image) l.role
    have cfg : l.cfg = (validateImage (imageBytes image) l.role).val := by rw [role]; exact congrArg Loaded.cfg form
    have adjusted : l.adjusted = ((roleOfValid strap.val (byteAt (imageBytes image) 3)).changed ||
        (validateImage (imageBytes image) l.role).changed) := by rw [role]; exact congrArg Loaded.adjusted form
    rw [← cfg] at each marks
    refine ⟨congrArg Loaded.isDefault form, ?_, ?_, ?_, ?_, ?_, ?_, fun three outside => ?_, ?_, each, ?_⟩
    · rintro rfl; exact role
    · rintro rfl; exact role
    · rintro rfl; exact role
    · rintro rfl is; rw [role, is]; rfl
    · rintro rfl is; rw [role, is]; rfl
    · rintro rfl is; rw [role, is]; rfl
    · rw [role, three]
      exact congrArg Checked.val (roleOfValid_outside outside)
    · rw [cfg]
      exact plainFieldsTaken _ _
    · rw [adjusted, Bool.or_eq_true, roleOfValid_changed, marks]

end Sys2Proof.Machine
end

section
/-! PROOFS. The ranges of the configuration in use (O6, R1, R18, R53, R72, R113, R152, R180, R182). -/

namespace Sys2Proof.Machine

open Sys2Proof

/-! ## The ranges, part by part -/

/-- The image's head in its ranges (R181). -/
def HeadInRange (c : Cfg) : Prop :=
  1 ≤ c.faultTimeS ∧ c.faultTimeS ≤ 30 ∧ 500 ≤ c.staleTimeMs ∧ c.staleTimeMs ≤ 10000 ∧
    2 ≤ c.statusInterval ∧ c.statusInterval ≤ 60 ∧ 1 ≤ c.readingInterval ∧ c.readingInterval ≤ 60 ∧
    1 ≤ c.pulseScale ∧ c.pulseScale ≤ 4000 ∧ 3 ≤ c.demandHoldS ∧ c.demandHoldS ≤ 30 ∧ 1 ≤ c.safeHoldS ∧
    c.safeHoldS ≤ 30 ∧ 1 ≤ c.driverLevel ∧ c.driverLevel ≤ 7 ∧ 1 ≤ c.scrubLevel ∧ c.scrubLevel ≤ 7 ∧
    10 ≤ c.scrubTimeS ∧ c.scrubTimeS ≤ 300 ∧ 50 ≤ c.targetBurden ∧ c.targetBurden ≤ 2000 ∧
    5 ≤ c.stallTolerance ∧ c.stallTolerance ≤ 200 ∧ 10 ≤ c.fullFlow ∧ c.fullFlow ≤ 500 ∧ c.efficiency ≤ 1000 ∧
    1000 ≤ c.capacityMg ∧ c.capacityMg ≤ 100000

/-- A slot in its ranges (R1). -/
def SlotInRange (x : SlotCfg) : Prop :=
  1 ≤ x.limit ∧ x.limit ≤ 10000 ∧ 1 ≤ x.fullScale ∧ x.fullScale ≤ 10000 ∧ -512 ≤ x.gain ∧ x.gain ≤ 511 ∧
    -256 ≤ x.offset ∧ x.offset ≤ 255 ∧ x.shift ≤ 6 ∧ x.warmUpS ≤ 600

/-- The detector in its ranges (R53). -/
def DetectorInRange (d : DetectorCfg) : Prop :=
  4 ≤ d.shift ∧ d.shift ≤ 10 ∧ 25 ≤ d.closeThreshold ∧ d.closeThreshold < d.openThreshold ∧ 50 ≤ d.openThreshold ∧
    d.openThreshold ≤ 2000 ∧ 10 ≤ d.maxOpenS ∧ d.maxOpenS ≤ 120

/-- The timeline in its ranges (R72). -/
def TimelineInRange (t : TimelineCfg) : Prop :=
  (t.mask.pm || t.mask.no2) = true ∧ t.leadMargin ≤ 100 ∧ t.tailMargin ≤ 200 ∧ 10 ≤ t.reverseDrop ∧
    t.reverseDrop ≤ 200 ∧ 2 ≤ t.approachCapS ∧ t.approachCapS ≤ 60 ∧ 10 ≤ t.engulfCapS ∧ t.engulfCapS ≤ 300 ∧
    1 ≤ t.plumeLevel ∧ t.plumeLevel ≤ 7 ∧ t.postHoldS ≤ 20 ∧
    ∀ (n : Fin 8) (p : Nat), t.geometry[n] = some p → p ≤ 254

/-- A ramp channel in its ranges (R127). -/
def RampInRange (r : RampCfg) : Prop := 1 ≤ r.step ∧ r.step ≤ 255 ∧ 5 ≤ r.intervalMs ∧ r.intervalMs ≤ 200

/-- A breakpoint table that rises (R114). -/
def TableInRange (t : BreakTable) : Prop :=
  t.b0.r = 0 ∧ t.b0.r < t.b1.r ∧ t.b1.r < t.b2.r ∧ t.b2.r < t.b3.r ∧ t.b3.r < t.b4.r ∧ t.b4.r = 1000 ∧
    t.b0.p ≤ t.b1.p ∧ t.b1.p ≤ t.b2.p ∧ t.b2.p ≤ t.b3.p ∧ t.b3.p ≤ t.b4.p ∧ t.b4.p ≤ 1023

/-- A rule in its ranges (R152). -/
def RuleInRange (r : RuleCfg) : Prop :=
  r.hysteresis ≤ 1000 ∧ 1 ≤ r.fireCount ∧ r.fireCount ≤ 15 ∧ 1 ≤ r.releaseCount ∧ r.releaseCount ≤ 15 ∧
    ∀ g level, r.action = .demand g level → 1 ≤ level ∧ level ≤ 7

/-! ## Fields from an image -/

theorem checkNum_ge {lo hi raw : Nat} : lo ≤ (checkNum lo hi raw).val := Nat.le_max_left _ _

theorem checkNum_le {lo hi raw : Nat} (h : lo ≤ hi) : (checkNum lo hi raw).val ≤ hi :=
  Nat.max_le.mpr ⟨h, Nat.min_le_left _ _⟩

theorem checkInt_ge {lo hi raw : Int} : lo ≤ (checkInt lo hi raw).val := le_max_left _ _

theorem checkInt_le {lo hi raw : Int} (h : lo ≤ hi) : (checkInt lo hi raw).val ≤ hi := max_le h (min_le_left _ _)

theorem staleTime_inRange (raw : Nat) :
    500 ≤ (checkNum 5 100 raw).val * 100 ∧ (checkNum 5 100 raw).val * 100 ≤ 10000 :=
  ⟨Nat.mul_le_mul_right (n := 5) 100 checkNum_ge, Nat.mul_le_mul_right (m := 100) 100 (checkNum_le (by decide))⟩

theorem validateImage_head (img : List Byte) (role : Role) : HeadInRange (validateImage img role).val :=
  ⟨checkNum_ge, checkNum_le (by decide), (staleTime_inRange _).1, (staleTime_inRange _).2, checkNum_ge,
    checkNum_le (by decide), checkNum_ge, checkNum_le (by decide), checkNum_ge, checkNum_le (by decide), checkNum_ge,
    checkNum_le (by decide), checkNum_ge, checkNum_le (by decide), checkNum_ge, checkNum_le (by decide), checkNum_ge,
    checkNum_le (by decide), checkNum_ge, checkNum_le (by decide), checkNum_ge, checkNum_le (by decide), checkNum_ge,
    checkNum_le (by decide), checkNum_ge, checkNum_le (by decide), checkNum_le (by decide), checkNum_ge,
    checkNum_le (by decide)⟩

theorem checkSlot_inRange (img : List Byte) (role : Role) (i : Nat) : SlotInRange (checkSlot img role i).val :=
  ⟨checkNum_ge, checkNum_le (by decide), checkNum_ge, checkNum_le (by decide), checkInt_ge, checkInt_le (by decide),
    checkInt_ge, checkInt_le (by decide), checkNum_le (by decide), checkNum_le (by decide)⟩

/-- The close threshold lies below the open one, which is at least 50 (R53). -/
theorem checkDetector_inRange (img : List Byte) : DetectorInRange (checkDetector img).val := by
  have opened : 50 ≤ (checkDetector img).val.openThreshold := checkNum_ge
  have below : (checkDetector img).val.closeThreshold ≤ (checkDetector img).val.openThreshold - 1 :=
    checkNum_le (show 25 ≤ (checkDetector img).val.openThreshold - 1 by omega)
  exact ⟨checkNum_ge, checkNum_le (by decide), checkNum_ge, by omega, opened, checkNum_le (by decide), checkNum_ge,
    checkNum_le (by decide)⟩

theorem checkTimeline_inRange (img : List Byte) : TimelineInRange (checkTimeline img).val := by
  refine ⟨?_, checkNum_le (by decide), checkNum_le (by decide), checkNum_ge, checkNum_le (by decide), checkNum_ge,
    checkNum_le (by decide), checkNum_ge, checkNum_le (by decide), checkNum_ge, checkNum_le (by decide),
    checkNum_le (by decide), fun n p set => ?_⟩
  · have mask : (checkTimeline img).val.mask = if !bitAt img 318 0 && !bitAt img 318 1 then ⟨true, true⟩
        else ⟨bitAt img 318 0, bitAt img 318 1⟩ := rfl
    rw [mask]
    cases bitAt img 318 0 <;> cases bitAt img 318 1 <;> rfl
  · have byte : geometryOfByte (byteAt img (310 + n.val)) = some p := (tabulate_get _ n).symm.trans set
    have low := byteAt_lt img (310 + n.val)
    obtain ⟨some, is⟩ := Option.ite_none_left_eq_some.mp byte
    have value : byteAt img (310 + n.val) = p := Option.some.inj is
    omega

theorem checkRamp_inRange (img : List Byte) (i : Nat) (default : RampCfg) : RampInRange (checkRamp img i default).val :=
  ⟨checkNum_ge, checkNum_le (by decide), checkNum_ge, checkNum_le (by decide)⟩

theorem defaultTable_inRange : TableInRange defaultTable := by
  unfold TableInRange
  decide

/-- A table that meets R114's conditions rises. -/
theorem tableInRange_of_valid {t : BreakTable} (valid : BreakTable.valid t = true) : TableInRange t := by
  obtain ⟨first, last, r1, r2, r3, r4, p1, p2, p3, p4, top⟩ := of_decide_eq_true valid
  exact ⟨first, r1, r2, r3, r4, last, p1, p2, p3, p4, top⟩

theorem checkedTable_inRange (t : BreakTable) : TableInRange (if BreakTable.valid t then t else defaultTable) := by
  split
  · next valid => exact tableInRange_of_valid valid
  · exact defaultTable_inRange

/-- The mix law in its ranges (R92, R113, R114). -/
def MixInRange (m : MixCfg) : Prop :=
  m.fallbackWish ≤ 1000 ∧ m.fallbackFloor ≤ 1000 ∧
    400 ≤ m.co2Low ∧ m.co2Low ≤ 3000 ∧ m.co2Low < m.co2High ∧ m.co2High ≤ 5000 ∧
    100 ≤ m.band ∧ m.band ≤ 2000 ∧ m.blowerBase ≤ 1023 ∧ m.blowerGain ≤ 2000 ∧
    m.blowerMin ≤ m.blowerMax ∧ m.blowerMax ≤ 1023 ∧
    m.table.b0.r = 0 ∧ m.table.b0.r < m.table.b1.r ∧ m.table.b1.r < m.table.b2.r ∧
    m.table.b2.r < m.table.b3.r ∧ m.table.b3.r < m.table.b4.r ∧ m.table.b4.r = 1000 ∧
    m.table.b0.p ≤ m.table.b1.p ∧ m.table.b1.p ≤ m.table.b2.p ∧
    m.table.b2.p ≤ m.table.b3.p ∧ m.table.b3.p ≤ m.table.b4.p ∧ m.table.b4.p ≤ 1023 ∧
    m.safeDamper ≤ 1023 ∧ m.safeBlower ≤ 1023 ∧ m.flushBlower ≤ 1023 ∧ m.scrubBlower ≤ 1023

theorem checkMix_inRange (img : List Byte) : MixInRange (checkMix img).val := by
  obtain ⟨first, r1, r2, r3, r4, last, p1, p2, p3, p4, top⟩ : TableInRange (checkMix img).val.table :=
    checkedTable_inRange _
  have low : (checkMix img).val.co2Low ≤ 3000 := checkNum_le (by decide)
  have high : (checkMix img).val.co2High ≤ 5000 := checkNum_le (show (checkMix img).val.co2Low + 1 ≤ 5000 by omega)
  exact ⟨checkNum_le (by decide), checkNum_le (by decide), checkNum_ge, low, checkNum_ge, high, checkNum_ge,
    checkNum_le (by decide), checkNum_le (by decide), checkNum_le (by decide), Nat.le_max_left _ _,
    Nat.max_le.mpr ⟨checkNum_le (by decide), checkNum_le (by decide)⟩, first, r1, r2, r3, r4, last, p1, p2, p3, p4, top,
    checkNum_le (by decide), checkNum_le (by decide), checkNum_le (by decide), checkNum_le (by decide)⟩

theorem disabledRule_inRange : RuleInRange disabledRule :=
  ⟨by decide, by decide, by decide, by decide, by decide, nofun⟩

/-- The level of a DEMAND is clamped to 1 to 7 (R152). -/
theorem actionOf_level {img : List Byte} {i : Nat} {act : Checked RuleAction} (action : actionOf img i = some act)
    {g : DemandRegime} {level : Nat} (demand : act.val = .demand g level) : 1 ≤ level ∧ level ≤ 7 := by
  unfold actionOf at action
  split at action
  · obtain rfl := Option.some.inj action
    cases demand
  · obtain ⟨r, -, rfl⟩ := Option.map_eq_some_iff.mp action
    obtain ⟨-, rfl⟩ := RuleAction.demand.inj demand
    exact ⟨checkNum_ge, checkNum_le (by decide)⟩
  · obtain rfl := Option.some.inj action
    cases demand
  · cases action

theorem checkRule_inRange (img : List Byte) (n : Nat) : RuleInRange (checkRule img n).val := by
  by_cases read : RuleRead img n
  · obtain ⟨a, operand⟩ := Option.isSome_iff_exists.mp read.1
    obtain ⟨c, comparand⟩ := Option.isSome_iff_exists.mp read.2.1
    obtain ⟨r, relation⟩ := Option.isSome_iff_exists.mp read.2.2.1
    obtain ⟨act, action⟩ := Option.isSome_iff_exists.mp ((actionOf_isSome img _).mpr read.2.2.2)
    rw [(checkRule_read operand comparand relation action).1]
    exact ⟨checkNum_le (by decide), checkNum_ge, checkNum_le (by decide), checkNum_ge, checkNum_le (by decide),
      fun g level => actionOf_level action⟩
  · rw [checkRule_unread read]
    exact disabledRule_inRange

/-! ## The factory defaults (R182) -/

/-- The free values of a spare slot are within R1's ranges (log 8). -/
theorem spareSlot_inRange (p : SpareSlot) : SlotInRange p.entry := by
  have gain := p.gain.isLt
  have offset := p.offset.isLt
  have scale := p.fullScale.isLt
  have limit := p.limit.isLt
  have warm := p.warmUpS.isLt
  unfold SlotInRange SpareSlot.entry
  dsimp only
  omega

theorem defaultSlot_inRange (role : Role) (i : Nat) : SlotInRange (defaultSlot role i) := by
  unfold defaultSlot
  split
  · exact spareSlot_inRange _
  · next k _ => cases k <;> simp [SlotInRange, defaultFullScale, defaultLimit]

theorem defaultRule_inRange (role : Role) (i : Nat) : RuleInRange (defaultRule role i) := by
  have demand {r : DemandRegime} {k : Nat} (low : 1 ≤ k ∧ k ≤ 7) (g : DemandRegime) (level : Nat)
      (is : RuleAction.demand r k = .demand g level) : 1 ≤ level ∧ level ≤ 7 := (RuleAction.demand.inj is).2 ▸ low
  unfold defaultRule
  split
  · exact ⟨by decide, by decide, by decide, by decide, by decide, demand (by decide)⟩
  · exact ⟨by decide, by decide, by decide, by decide, by decide, demand (by decide)⟩
  · exact disabledRule_inRange

/-! ## The configuration in use -/

/-- A configuration with every field in the ranges of the chapters. -/
structure InRange (c : Cfg) : Prop where
  head : HeadInRange c
  slots : ∀ i : Fin 16, SlotInRange c.slots[i]
  inputs : ∀ i : Fin 4, 10 ≤ c.inputs[i].debounceMs ∧ c.inputs[i].debounceMs ≤ 250
  detector : DetectorInRange c.detector
  timeline : TimelineInRange c.timeline
  ramps : ∀ r ∈ [c.damper, c.blower], RampInRange r
  mix : MixInRange c.mix
  rules : ∀ n : Fin 8, RuleInRange c.rules[n]

theorem validateImage_inRange (img : List Byte) (role : Role) : InRange (validateImage img role).val where
  head := validateImage_head img role
  slots i := by
    rw [validateImage_slot]
    exact checkSlot_inRange img role i
  inputs i := by
    have input : (validateImage img role).val.inputs[i] = (checkInput img i.val).val :=
      (mapVector_get _ _ i).trans (congrArg Checked.val (tabulate_get _ i))
    rw [input]
    exact ⟨checkNum_ge, checkNum_le (by decide)⟩
  detector := checkDetector_inRange img
  timeline := checkTimeline_inRange img
  ramps := List.forall_mem_cons.mpr ⟨checkRamp_inRange _ _ _, List.forall_mem_singleton.mpr (checkRamp_inRange _ _ _)⟩
  mix := checkMix_inRange img
  rules n := by
    have rule : (validateImage img role).val.rules[n] = (checkRule img n.val).val :=
      (mapVector_get _ _ n).trans (congrArg Checked.val (tabulate_get _ n))
    rw [rule]
    exact checkRule_inRange img n

theorem factoryDefault_inRange (role : Role) : InRange (factoryDefault role) where
  head := by simp [HeadInRange, factoryDefault]
  slots i := by
    rw [show (factoryDefault role).slots[i] = defaultSlot role i from tabulate_get _ i]
    exact defaultSlot_inRange role i
  inputs i := by
    rw [show (factoryDefault role).inputs[i] = defaultInputCfg i from tabulate_get _ i]
    simp [defaultInputCfg]
  detector := by simp [DetectorInRange, factoryDefault]
  timeline := by
    have unset (n : Fin 8) : (factoryDefault role).timeline.geometry[n] = none := tabulate_get _ n
    simp only [TimelineInRange, unset]
    simp [factoryDefault]
  ramps := by simp [RampInRange, factoryDefault]
  mix := by simp [MixInRange, factoryDefault, defaultMix, defaultTable]
  rules n := by
    rw [show (factoryDefault role).rules[n] = defaultRule role n from tabulate_get _ n]
    exact defaultRule_inRange role n

theorem loadImage_inRange (strap : Nat) (image : List Byte) : InRange (loadImage strap image).cfg := by
  cases valid : imageValid (imageBytes image) with
  | true =>
    rw [loadImage_valid valid]
    exact validateImage_inRange _ _
  | false =>
    rw [loadImage_default valid]
    exact factoryDefault_inRange _

/-- Settles O6: `loadImage_inRange`, from an image by its checks and from the factory defaults by their table. -/
theorem configurationInUseIsInRange : Obligations.ConfigurationInUseIsInRange := by
  intro strap image c
  obtain ⟨head, slots, inputs, detector, timeline, ramps, mix, rules⟩ := loadImage_inRange strap.val image
  exact ⟨head, slots, inputs, detector, timeline, ramps, mix, rules⟩

end Sys2Proof.Machine
end
